-- ==== Sys2Proof/Word.lean ====
section
/-! DEFINITION. The word types of the core (spec/00_scope.md R9, R11): a byte is 8 bits, an address or word 16 bits. -/

namespace Sys2Proof

/-- A byte: A, X, Y, SP, P, an opcode, an operand byte or one memory cell (R9). -/
abbrev Byte := BitVec 8

/-- A 16-bit word: pc, an address, a vector or a pointer (R9). -/
abbrev Addr := BitVec 16

end Sys2Proof
end

