-- ==== Sys2Proof/Syntax.lean ====
section
/-! DEFINITION. The instruction set as syntax: mnemonics, addressing modes, decoded operands and ONE constructor of
`Instr` per row of spec/opcode_table.json (spec/30_encoding.md R80 to R100). -/

namespace Sys2Proof

/-- The 56 mnemonics (00_scope.md R2), in the order of the section files. -/
inductive Mnemonic where
  | adc | sbc | and | ora | eor
  | asl | lsr | rol | ror
  | cmp | cpx | cpy | inc | dec | inx | iny | dex | dey
  | bcc | bcs | beq | bne | bmi | bpl | bvc | bvs
  | clc | cld | cli | clv | sec | sed | sei
  | lda | ldx | ldy | sta | stx | sty | tax | tay | txa | tya | tsx | txs
  | pha | php | pla | plp
  | jsr | rts | jmp
  | brk | rti | bit | nop
  deriving DecidableEq, Repr

/-- The twelve addressing modes (30_encoding.md R83). -/
inductive Mode where
  | immediate | zeroPage | zeroPageX | zeroPageY
  | absolute | absoluteX | absoluteY | indirect
  | indirectX | indirectY | relative | noneAddressing
  deriving DecidableEq, Repr

/-- A decoded operand: the addressing mode with the operand bytes it consumed (R81). A two-byte operand is held as
the 16-bit word its bytes make, low byte first. -/
inductive Operand where
  | immediate (v : Byte)
  | zeroPage (zp : Byte)
  | zeroPageX (zp : Byte)
  | zeroPageY (zp : Byte)
  | absolute (addr : Addr)
  | absoluteX (addr : Addr)
  | absoluteY (addr : Addr)
  | indirect (ptr : Addr)
  | indirectX (zp : Byte)
  | indirectY (zp : Byte)
  | relative (d : Byte)
  | none
  deriving DecidableEq, Repr

/-- The addressing mode of an operand (R83). -/
def Operand.mode : Operand → Mode
  | .immediate _ => .immediate
  | .zeroPage _ => .zeroPage
  | .zeroPageX _ => .zeroPageX
  | .zeroPageY _ => .zeroPageY
  | .absolute _ => .absolute
  | .absoluteX _ => .absoluteX
  | .absoluteY _ => .absoluteY
  | .indirect _ => .indirect
  | .indirectX _ => .indirectX
  | .indirectY _ => .indirectY
  | .relative _ => .relative
  | .none => .noneAddressing

/-- The instructions: one constructor per row of the opcode table. `v` is an immediate byte, `zp` a zero-page
address or pointer byte, `addr` a 16-bit address, `ptr` a 16-bit pointer, `d` a branch displacement (R81). -/
inductive Instr where
  -- Arithmetic and logic (41_arithmetic_logic.md)
  | adcImm (v : Byte)
  | adcZp (zp : Byte)
  | adcZpX (zp : Byte)
  | adcAbs (addr : Addr)
  | adcAbsX (addr : Addr)
  | adcAbsY (addr : Addr)
  | adcIndX (zp : Byte)
  | adcIndY (zp : Byte)
  | sbcImm (v : Byte)
  | sbcZp (zp : Byte)
  | sbcZpX (zp : Byte)
  | sbcAbs (addr : Addr)
  | sbcAbsX (addr : Addr)
  | sbcAbsY (addr : Addr)
  | sbcIndX (zp : Byte)
  | sbcIndY (zp : Byte)
  | andImm (v : Byte)
  | andZp (zp : Byte)
  | andZpX (zp : Byte)
  | andAbs (addr : Addr)
  | andAbsX (addr : Addr)
  | andAbsY (addr : Addr)
  | andIndX (zp : Byte)
  | andIndY (zp : Byte)
  | oraImm (v : Byte)
  | oraZp (zp : Byte)
  | oraZpX (zp : Byte)
  | oraAbs (addr : Addr)
  | oraAbsX (addr : Addr)
  | oraAbsY (addr : Addr)
  | oraIndX (zp : Byte)
  | oraIndY (zp : Byte)
  | eorImm (v : Byte)
  | eorZp (zp : Byte)
  | eorZpX (zp : Byte)
  | eorAbs (addr : Addr)
  | eorAbsX (addr : Addr)
  | eorAbsY (addr : Addr)
  | eorIndX (zp : Byte)
  | eorIndY (zp : Byte)
  -- Shifts and rotates (42_shift_rotate.md)
  | aslZp (zp : Byte)
  | aslZpX (zp : Byte)
  | aslAbs (addr : Addr)
  | aslAbsX (addr : Addr)
  | aslAcc
  | lsrZp (zp : Byte)
  | lsrZpX (zp : Byte)
  | lsrAbs (addr : Addr)
  | lsrAbsX (addr : Addr)
  | lsrAcc
  | rolZp (zp : Byte)
  | rolZpX (zp : Byte)
  | rolAbs (addr : Addr)
  | rolAbsX (addr : Addr)
  | rolAcc
  | rorZp (zp : Byte)
  | rorZpX (zp : Byte)
  | rorAbs (addr : Addr)
  | rorAbsX (addr : Addr)
  | rorAcc
  -- Compares, increments and decrements (43_compare_incdec.md)
  | cmpImm (v : Byte)
  | cmpZp (zp : Byte)
  | cmpZpX (zp : Byte)
  | cmpAbs (addr : Addr)
  | cmpAbsX (addr : Addr)
  | cmpAbsY (addr : Addr)
  | cmpIndX (zp : Byte)
  | cmpIndY (zp : Byte)
  | cpxImm (v : Byte)
  | cpxZp (zp : Byte)
  | cpxAbs (addr : Addr)
  | cpyImm (v : Byte)
  | cpyZp (zp : Byte)
  | cpyAbs (addr : Addr)
  | incZp (zp : Byte)
  | incZpX (zp : Byte)
  | incAbs (addr : Addr)
  | incAbsX (addr : Addr)
  | decZp (zp : Byte)
  | decZpX (zp : Byte)
  | decAbs (addr : Addr)
  | decAbsX (addr : Addr)
  | inx
  | iny
  | dex
  | dey
  -- Conditional branches (44_branch.md)
  | bcc (d : Byte)
  | bcs (d : Byte)
  | beq (d : Byte)
  | bne (d : Byte)
  | bmi (d : Byte)
  | bpl (d : Byte)
  | bvc (d : Byte)
  | bvs (d : Byte)
  -- Flag set and clear (45_flag.md)
  | clc
  | cld
  | cli
  | clv
  | sec
  | sed
  | sei
  -- Loads, stores and transfers (46_load_store_transfer.md)
  | ldaImm (v : Byte)
  | ldaZp (zp : Byte)
  | ldaZpX (zp : Byte)
  | ldaAbs (addr : Addr)
  | ldaAbsX (addr : Addr)
  | ldaAbsY (addr : Addr)
  | ldaIndX (zp : Byte)
  | ldaIndY (zp : Byte)
  | ldxImm (v : Byte)
  | ldxZp (zp : Byte)
  | ldxZpY (zp : Byte)
  | ldxAbs (addr : Addr)
  | ldxAbsY (addr : Addr)
  | ldyImm (v : Byte)
  | ldyZp (zp : Byte)
  | ldyZpX (zp : Byte)
  | ldyAbs (addr : Addr)
  | ldyAbsX (addr : Addr)
  | staZp (zp : Byte)
  | staZpX (zp : Byte)
  | staAbs (addr : Addr)
  | staAbsX (addr : Addr)
  | staAbsY (addr : Addr)
  | staIndX (zp : Byte)
  | staIndY (zp : Byte)
  | stxZp (zp : Byte)
  | stxZpY (zp : Byte)
  | stxAbs (addr : Addr)
  | styZp (zp : Byte)
  | styZpX (zp : Byte)
  | styAbs (addr : Addr)
  | tax
  | tay
  | txa
  | tya
  | tsx
  | txs
  -- Stack pushes and pulls (47_stack.md)
  | pha
  | php
  | pla
  | plp
  -- Jumps and subroutines (48_jump_subroutine.md)
  | jsr (addr : Addr)
  | rts
  | jmpAbs (addr : Addr)
  | jmpInd (ptr : Addr)
  -- Break, return from interrupt, bit test, no-op (49_interrupt_misc.md)
  | brk
  | rti
  | bitZp (zp : Byte)
  | bitAbs (addr : Addr)
  | nop
  deriving DecidableEq, Repr

/-- The mnemonic of an instruction (R80). -/
def Instr.mnemonic : Instr → Mnemonic
  | .adcImm _ | .adcZp _ | .adcZpX _ | .adcAbs _ | .adcAbsX _ | .adcAbsY _ | .adcIndX _ | .adcIndY _ => .adc
  | .sbcImm _ | .sbcZp _ | .sbcZpX _ | .sbcAbs _ | .sbcAbsX _ | .sbcAbsY _ | .sbcIndX _ | .sbcIndY _ => .sbc
  | .andImm _ | .andZp _ | .andZpX _ | .andAbs _ | .andAbsX _ | .andAbsY _ | .andIndX _ | .andIndY _ => .and
  | .oraImm _ | .oraZp _ | .oraZpX _ | .oraAbs _ | .oraAbsX _ | .oraAbsY _ | .oraIndX _ | .oraIndY _ => .ora
  | .eorImm _ | .eorZp _ | .eorZpX _ | .eorAbs _ | .eorAbsX _ | .eorAbsY _ | .eorIndX _ | .eorIndY _ => .eor
  | .aslZp _ | .aslZpX _ | .aslAbs _ | .aslAbsX _ | .aslAcc => .asl
  | .lsrZp _ | .lsrZpX _ | .lsrAbs _ | .lsrAbsX _ | .lsrAcc => .lsr
  | .rolZp _ | .rolZpX _ | .rolAbs _ | .rolAbsX _ | .rolAcc => .rol
  | .rorZp _ | .rorZpX _ | .rorAbs _ | .rorAbsX _ | .rorAcc => .ror
  | .cmpImm _ | .cmpZp _ | .cmpZpX _ | .cmpAbs _ | .cmpAbsX _ | .cmpAbsY _ | .cmpIndX _ | .cmpIndY _ => .cmp
  | .cpxImm _ | .cpxZp _ | .cpxAbs _ => .cpx
  | .cpyImm _ | .cpyZp _ | .cpyAbs _ => .cpy
  | .incZp _ | .incZpX _ | .incAbs _ | .incAbsX _ => .inc
  | .decZp _ | .decZpX _ | .decAbs _ | .decAbsX _ => .dec
  | .inx => .inx
  | .iny => .iny
  | .dex => .dex
  | .dey => .dey
  | .bcc _ => .bcc
  | .bcs _ => .bcs
  | .beq _ => .beq
  | .bne _ => .bne
  | .bmi _ => .bmi
  | .bpl _ => .bpl
  | .bvc _ => .bvc
  | .bvs _ => .bvs
  | .clc => .clc
  | .cld => .cld
  | .cli => .cli
  | .clv => .clv
  | .sec => .sec
  | .sed => .sed
  | .sei => .sei
  | .ldaImm _ | .ldaZp _ | .ldaZpX _ | .ldaAbs _ | .ldaAbsX _ | .ldaAbsY _ | .ldaIndX _ | .ldaIndY _ => .lda
  | .ldxImm _ | .ldxZp _ | .ldxZpY _ | .ldxAbs _ | .ldxAbsY _ => .ldx
  | .ldyImm _ | .ldyZp _ | .ldyZpX _ | .ldyAbs _ | .ldyAbsX _ => .ldy
  | .staZp _ | .staZpX _ | .staAbs _ | .staAbsX _ | .staAbsY _ | .staIndX _ | .staIndY _ => .sta
  | .stxZp _ | .stxZpY _ | .stxAbs _ => .stx
  | .styZp _ | .styZpX _ | .styAbs _ => .sty
  | .tax => .tax
  | .tay => .tay
  | .txa => .txa
  | .tya => .tya
  | .tsx => .tsx
  | .txs => .txs
  | .pha => .pha
  | .php => .php
  | .pla => .pla
  | .plp => .plp
  | .jsr _ => .jsr
  | .rts => .rts
  | .jmpAbs _ | .jmpInd _ => .jmp
  | .brk => .brk
  | .rti => .rti
  | .bitZp _ | .bitAbs _ => .bit
  | .nop => .nop

/-- The operand of an instruction: its addressing mode and operand bytes (R81, R83). -/
def Instr.operand : Instr → Operand
  | .adcImm v | .sbcImm v | .andImm v | .oraImm v | .eorImm v | .cmpImm v | .cpxImm v | .cpyImm v
  | .ldaImm v | .ldxImm v | .ldyImm v => .immediate v
  | .adcZp zp | .sbcZp zp | .andZp zp | .oraZp zp | .eorZp zp | .aslZp zp | .lsrZp zp | .rolZp zp
  | .rorZp zp | .cmpZp zp | .cpxZp zp | .cpyZp zp | .incZp zp | .decZp zp | .ldaZp zp | .ldxZp zp
  | .ldyZp zp | .staZp zp | .stxZp zp | .styZp zp | .bitZp zp => .zeroPage zp
  | .adcZpX zp | .sbcZpX zp | .andZpX zp | .oraZpX zp | .eorZpX zp | .aslZpX zp | .lsrZpX zp | .rolZpX zp
  | .rorZpX zp | .cmpZpX zp | .incZpX zp | .decZpX zp | .ldaZpX zp | .ldyZpX zp | .staZpX zp | .styZpX zp => .zeroPageX zp
  | .ldxZpY zp | .stxZpY zp => .zeroPageY zp
  | .adcAbs addr | .sbcAbs addr | .andAbs addr | .oraAbs addr | .eorAbs addr | .aslAbs addr | .lsrAbs addr
  | .rolAbs addr | .rorAbs addr | .cmpAbs addr | .cpxAbs addr | .cpyAbs addr | .incAbs addr | .decAbs addr
  | .ldaAbs addr | .ldxAbs addr | .ldyAbs addr | .staAbs addr | .stxAbs addr | .styAbs addr | .jsr addr
  | .jmpAbs addr | .bitAbs addr => .absolute addr
  | .adcAbsX addr | .sbcAbsX addr | .andAbsX addr | .oraAbsX addr | .eorAbsX addr | .aslAbsX addr
  | .lsrAbsX addr | .rolAbsX addr | .rorAbsX addr | .cmpAbsX addr | .incAbsX addr | .decAbsX addr
  | .ldaAbsX addr | .ldyAbsX addr | .staAbsX addr => .absoluteX addr
  | .adcAbsY addr | .sbcAbsY addr | .andAbsY addr | .oraAbsY addr | .eorAbsY addr | .cmpAbsY addr
  | .ldaAbsY addr | .ldxAbsY addr | .staAbsY addr => .absoluteY addr
  | .jmpInd ptr => .indirect ptr
  | .adcIndX zp | .sbcIndX zp | .andIndX zp | .oraIndX zp | .eorIndX zp | .cmpIndX zp | .ldaIndX zp
  | .staIndX zp => .indirectX zp
  | .adcIndY zp | .sbcIndY zp | .andIndY zp | .oraIndY zp | .eorIndY zp | .cmpIndY zp | .ldaIndY zp
  | .staIndY zp => .indirectY zp
  | .bcc d | .bcs d | .beq d | .bne d | .bmi d | .bpl d | .bvc d | .bvs d => .relative d
  | .aslAcc | .lsrAcc | .rolAcc | .rorAcc | .inx | .iny | .dex | .dey | .clc | .cld | .cli | .clv | .sec
  | .sed | .sei | .tax | .tay | .txa | .tya | .tsx | .txs | .pha | .php | .pla | .plp | .rts | .brk | .rti
  | .nop => .none

end Sys2Proof
end

