-- ==== Sys2Proof/WellFormed.lean ====
section
/-! DEFINITION. Well-formedness: which addressing modes each mnemonic takes (spec/30_encoding.md R97) and which
mnemonics need an address (spec/40_execution_core.md R123), checked on an instruction's mnemonic and operand. -/

namespace Sys2Proof

/-- What an instruction needs of address resolution (R123). -/
inductive Needs where
  /-- It needs a resolved address. -/
  | address
  /-- It takes an address or, with none, the accumulator. -/
  | either
  /-- Its rule ignores the address. -/
  | nothing
  deriving DecidableEq, Repr

/-- `Needs(mne)` (R123). -/
def Mnemonic.needs : Mnemonic → Needs
  | .adc | .sbc | .and | .ora | .eor | .cmp | .cpx | .cpy | .bit | .inc | .dec | .lda | .ldx | .ldy
  | .sta | .stx | .sty | .jmp | .jsr | .bcc | .bcs | .beq | .bne | .bmi | .bpl | .bvc | .bvs => .address
  | .asl | .lsr | .rol | .ror => .either
  | .inx | .iny | .dex | .dey | .clc | .cld | .cli | .clv | .sec | .sed | .sei | .tax | .tay | .txa | .tya
  | .tsx | .txs | .pha | .php | .pla | .plp | .rts | .brk | .rti | .nop => .nothing

/-- The addressing modes each mnemonic takes: the non-empty cells of its row in the table of R97. -/
def Mnemonic.modes : Mnemonic → List Mode
  | .adc | .sbc | .and | .ora | .eor | .cmp | .lda =>
      [.immediate, .zeroPage, .zeroPageX, .absolute, .absoluteX, .absoluteY, .indirectX, .indirectY]
  | .asl | .lsr | .rol | .ror =>
      [.zeroPage, .zeroPageX, .absolute, .absoluteX, .noneAddressing]
  | .cpx | .cpy =>
      [.immediate, .zeroPage, .absolute]
  | .inc | .dec =>
      [.zeroPage, .zeroPageX, .absolute, .absoluteX]
  | .inx | .iny | .dex | .dey | .clc | .cld | .cli | .clv | .sec | .sed | .sei | .tax | .tay | .txa | .tya
  | .tsx | .txs | .pha | .php | .pla | .plp | .rts | .brk | .rti | .nop =>
      [.noneAddressing]
  | .bcc | .bcs | .beq | .bne | .bmi | .bpl | .bvc | .bvs =>
      [.relative]
  | .ldx =>
      [.immediate, .zeroPage, .zeroPageY, .absolute, .absoluteY]
  | .ldy =>
      [.immediate, .zeroPage, .zeroPageX, .absolute, .absoluteX]
  | .sta =>
      [.zeroPage, .zeroPageX, .absolute, .absoluteX, .absoluteY, .indirectX, .indirectY]
  | .stx =>
      [.zeroPage, .zeroPageY, .absolute]
  | .sty =>
      [.zeroPage, .zeroPageX, .absolute]
  | .jsr =>
      [.absolute]
  | .jmp =>
      [.absolute, .indirect]
  | .bit =>
      [.zeroPage, .absolute]

/-- The mode is one the mnemonic takes (R97). -/
def modeAllowed (m : Mnemonic) (op : Operand) : Bool := m.modes.contains op.mode

/-- A mnemonic that needs an address has a mode that yields one (R123; 95_test_vectors.md V33). -/
def addressSupplied (m : Mnemonic) (op : Operand) : Bool :=
  !(m.needs == .address && op.mode == .noneAddressing)

/-- A mnemonic whose rule ignores the address takes no operand bytes (R99, R123). -/
def operandUsed (m : Mnemonic) (op : Operand) : Bool :=
  !(m.needs == .nothing && op.mode != .noneAddressing)

/-- A mnemonic and an operand fit together. -/
def wellFormed (m : Mnemonic) (op : Operand) : Bool :=
  modeAllowed m op && addressSupplied m op && operandUsed m op

/-- An instruction is well-formed. The constructors of `Instr` are the rows of the opcode table, so every instruction
is (Sys2Proof/Laws/PerInstr.lean): the check holds the constructors against R97 and R123. -/
def Instr.wf (i : Instr) : Bool := wellFormed i.mnemonic i.operand

end Sys2Proof
end

