-- ==== Sys2Proof/Decode.lean ====
section
/-! DEFINITION. The opcode table, the decoder and the encoder (spec/30_encoding.md R80 to R104), with the byte-order
helpers they use. The code and cycle columns rest on the spec's decisions D18, D19 and D21 (log 7). -/

namespace Sys2Proof

/-- The 16-bit word of a low and a high byte: `hi :: lo` (00_scope.md R12, R14). -/
def wordOf (lo hi : Byte) : Addr := hi ++ lo

/-- `v[7:0]` of a word (R11). -/
def lowByte (w : Addr) : Byte := w.extractLsb' 0 8

/-- `v[15:8]` of a word (R11). -/
def highByte (w : Addr) : Byte := w.extractLsb' 8 8

/-- How many operand bytes a mode consumes (R83). -/
def Mode.operandBytes : Mode → Nat
  | .immediate | .zeroPage | .zeroPageX | .zeroPageY | .indirectX | .indirectY | .relative => 1
  | .absolute | .absoluteX | .absoluteY | .indirect => 2
  | .noneAddressing => 0

/-- How many operand bytes an operand took from the instruction stream (R83). -/
def Operand.size (op : Operand) : Nat := op.mode.operandBytes

/-- The length of an instruction: 1 plus the operand bytes of its mode (R82). -/
def Instr.length (i : Instr) : Nat := 1 + i.operand.size

/-- The format of a row: how its operand bytes become the instruction's operand (R81: F1, F2, F3). -/
inductive Format where
  /-- F1: no operand byte. -/
  | f1 (i : Instr)
  /-- F2: one operand byte. -/
  | f2 (build : Byte → Instr)
  /-- F3: a little-endian 16-bit operand, low byte first. -/
  | f3 (build : Addr → Instr)

/-- The instruction a format gives with the two bytes after the opcode; a byte past the instruction's length is not
looked at. -/
def Format.fill : Format → Byte → Byte → Instr
  | .f1 i, _, _ => i
  | .f2 build, b1, _ => build b1
  | .f3 build, b1, b2 => build (wordOf b1 b2)

/-- A row of the opcode table (R100). The mnemonic, the mode and the length of the row are those of the instruction
its format builds. `cycles` is the advisory count: metadata that no step reads (R293; log 7). -/
structure OpRow where
  code : Byte
  format : Format
  cycles : Nat

/-- Row 0 of the grid: codes 0x00 to 0x0F. -/
def gridRow0 : List OpRow :=
  [ ⟨0x00, .f1 .brk, 7⟩, ⟨0x01, .f2 .oraIndX, 6⟩, ⟨0x05, .f2 .oraZp, 3⟩, ⟨0x06, .f2 .aslZp, 5⟩,
    ⟨0x08, .f1 .php, 3⟩, ⟨0x09, .f2 .oraImm, 2⟩, ⟨0x0A, .f1 .aslAcc, 2⟩, ⟨0x0D, .f3 .oraAbs, 4⟩,
    ⟨0x0E, .f3 .aslAbs, 6⟩ ]

/-- Row 1 of the grid: codes 0x10 to 0x1F. -/
def gridRow1 : List OpRow :=
  [ ⟨0x10, .f2 .bpl, 2⟩, ⟨0x11, .f2 .oraIndY, 5⟩, ⟨0x15, .f2 .oraZpX, 4⟩, ⟨0x16, .f2 .aslZpX, 6⟩,
    ⟨0x18, .f1 .clc, 2⟩, ⟨0x19, .f3 .oraAbsY, 4⟩, ⟨0x1D, .f3 .oraAbsX, 4⟩, ⟨0x1E, .f3 .aslAbsX, 7⟩ ]

/-- Row 2 of the grid: codes 0x20 to 0x2F. -/
def gridRow2 : List OpRow :=
  [ ⟨0x20, .f3 .jsr, 6⟩, ⟨0x21, .f2 .andIndX, 6⟩, ⟨0x24, .f2 .bitZp, 3⟩, ⟨0x25, .f2 .andZp, 3⟩,
    ⟨0x26, .f2 .rolZp, 5⟩, ⟨0x28, .f1 .plp, 4⟩, ⟨0x29, .f2 .andImm, 2⟩, ⟨0x2A, .f1 .rolAcc, 2⟩,
    ⟨0x2C, .f3 .bitAbs, 4⟩, ⟨0x2D, .f3 .andAbs, 4⟩, ⟨0x2E, .f3 .rolAbs, 6⟩ ]

/-- Row 3 of the grid: codes 0x30 to 0x3F. -/
def gridRow3 : List OpRow :=
  [ ⟨0x30, .f2 .bmi, 2⟩, ⟨0x31, .f2 .andIndY, 5⟩, ⟨0x35, .f2 .andZpX, 4⟩, ⟨0x36, .f2 .rolZpX, 6⟩,
    ⟨0x38, .f1 .sec, 2⟩, ⟨0x39, .f3 .andAbsY, 4⟩, ⟨0x3D, .f3 .andAbsX, 4⟩, ⟨0x3E, .f3 .rolAbsX, 7⟩ ]

/-- Row 4 of the grid: codes 0x40 to 0x4F. -/
def gridRow4 : List OpRow :=
  [ ⟨0x40, .f1 .rti, 6⟩, ⟨0x41, .f2 .eorIndX, 6⟩, ⟨0x45, .f2 .eorZp, 3⟩, ⟨0x46, .f2 .lsrZp, 5⟩,
    ⟨0x48, .f1 .pha, 3⟩, ⟨0x49, .f2 .eorImm, 2⟩, ⟨0x4A, .f1 .lsrAcc, 2⟩, ⟨0x4C, .f3 .jmpAbs, 3⟩,
    ⟨0x4D, .f3 .eorAbs, 4⟩, ⟨0x4E, .f3 .lsrAbs, 6⟩ ]

/-- Row 5 of the grid: codes 0x50 to 0x5F. -/
def gridRow5 : List OpRow :=
  [ ⟨0x50, .f2 .bvc, 2⟩, ⟨0x51, .f2 .eorIndY, 5⟩, ⟨0x55, .f2 .eorZpX, 4⟩, ⟨0x56, .f2 .lsrZpX, 6⟩,
    ⟨0x58, .f1 .cli, 2⟩, ⟨0x59, .f3 .eorAbsY, 4⟩, ⟨0x5D, .f3 .eorAbsX, 4⟩, ⟨0x5E, .f3 .lsrAbsX, 7⟩ ]

/-- Row 6 of the grid: codes 0x60 to 0x6F. -/
def gridRow6 : List OpRow :=
  [ ⟨0x60, .f1 .rts, 6⟩, ⟨0x61, .f2 .adcIndX, 6⟩, ⟨0x65, .f2 .adcZp, 3⟩, ⟨0x66, .f2 .rorZp, 5⟩,
    ⟨0x68, .f1 .pla, 4⟩, ⟨0x69, .f2 .adcImm, 2⟩, ⟨0x6A, .f1 .rorAcc, 2⟩, ⟨0x6C, .f3 .jmpInd, 5⟩,
    ⟨0x6D, .f3 .adcAbs, 4⟩, ⟨0x6E, .f3 .rorAbs, 6⟩ ]

/-- Row 7 of the grid: codes 0x70 to 0x7F. -/
def gridRow7 : List OpRow :=
  [ ⟨0x70, .f2 .bvs, 2⟩, ⟨0x71, .f2 .adcIndY, 5⟩, ⟨0x75, .f2 .adcZpX, 4⟩, ⟨0x76, .f2 .rorZpX, 6⟩,
    ⟨0x78, .f1 .sei, 2⟩, ⟨0x79, .f3 .adcAbsY, 4⟩, ⟨0x7D, .f3 .adcAbsX, 4⟩, ⟨0x7E, .f3 .rorAbsX, 7⟩ ]

/-- Row 8 of the grid: codes 0x80 to 0x8F. -/
def gridRow8 : List OpRow :=
  [ ⟨0x81, .f2 .staIndX, 6⟩, ⟨0x84, .f2 .styZp, 3⟩, ⟨0x85, .f2 .staZp, 3⟩, ⟨0x86, .f2 .stxZp, 3⟩,
    ⟨0x88, .f1 .dey, 2⟩, ⟨0x8A, .f1 .txa, 2⟩, ⟨0x8C, .f3 .styAbs, 4⟩, ⟨0x8D, .f3 .staAbs, 4⟩,
    ⟨0x8E, .f3 .stxAbs, 4⟩ ]

/-- Row 9 of the grid: codes 0x90 to 0x9F. -/
def gridRow9 : List OpRow :=
  [ ⟨0x90, .f2 .bcc, 2⟩, ⟨0x91, .f2 .staIndY, 6⟩, ⟨0x94, .f2 .styZpX, 4⟩, ⟨0x95, .f2 .staZpX, 4⟩,
    ⟨0x96, .f2 .stxZpY, 4⟩, ⟨0x98, .f1 .tya, 2⟩, ⟨0x99, .f3 .staAbsY, 5⟩, ⟨0x9A, .f1 .txs, 2⟩,
    ⟨0x9D, .f3 .staAbsX, 5⟩ ]

/-- Row A of the grid: codes 0xA0 to 0xAF. -/
def gridRowA : List OpRow :=
  [ ⟨0xA0, .f2 .ldyImm, 2⟩, ⟨0xA1, .f2 .ldaIndX, 6⟩, ⟨0xA2, .f2 .ldxImm, 2⟩, ⟨0xA4, .f2 .ldyZp, 3⟩,
    ⟨0xA5, .f2 .ldaZp, 3⟩, ⟨0xA6, .f2 .ldxZp, 3⟩, ⟨0xA8, .f1 .tay, 2⟩, ⟨0xA9, .f2 .ldaImm, 2⟩,
    ⟨0xAA, .f1 .tax, 2⟩, ⟨0xAC, .f3 .ldyAbs, 4⟩, ⟨0xAD, .f3 .ldaAbs, 4⟩, ⟨0xAE, .f3 .ldxAbs, 4⟩ ]

/-- Row B of the grid: codes 0xB0 to 0xBF. -/
def gridRowB : List OpRow :=
  [ ⟨0xB0, .f2 .bcs, 2⟩, ⟨0xB1, .f2 .ldaIndY, 5⟩, ⟨0xB4, .f2 .ldyZpX, 4⟩, ⟨0xB5, .f2 .ldaZpX, 4⟩,
    ⟨0xB6, .f2 .ldxZpY, 4⟩, ⟨0xB8, .f1 .clv, 2⟩, ⟨0xB9, .f3 .ldaAbsY, 4⟩, ⟨0xBA, .f1 .tsx, 2⟩,
    ⟨0xBC, .f3 .ldyAbsX, 4⟩, ⟨0xBD, .f3 .ldaAbsX, 4⟩, ⟨0xBE, .f3 .ldxAbsY, 4⟩ ]

/-- Row C of the grid: codes 0xC0 to 0xCF. -/
def gridRowC : List OpRow :=
  [ ⟨0xC0, .f2 .cpyImm, 2⟩, ⟨0xC1, .f2 .cmpIndX, 6⟩, ⟨0xC4, .f2 .cpyZp, 3⟩, ⟨0xC5, .f2 .cmpZp, 3⟩,
    ⟨0xC6, .f2 .decZp, 5⟩, ⟨0xC8, .f1 .iny, 2⟩, ⟨0xC9, .f2 .cmpImm, 2⟩, ⟨0xCA, .f1 .dex, 2⟩,
    ⟨0xCC, .f3 .cpyAbs, 4⟩, ⟨0xCD, .f3 .cmpAbs, 4⟩, ⟨0xCE, .f3 .decAbs, 6⟩ ]

/-- Row D of the grid: codes 0xD0 to 0xDF. -/
def gridRowD : List OpRow :=
  [ ⟨0xD0, .f2 .bne, 2⟩, ⟨0xD1, .f2 .cmpIndY, 5⟩, ⟨0xD5, .f2 .cmpZpX, 4⟩, ⟨0xD6, .f2 .decZpX, 6⟩,
    ⟨0xD8, .f1 .cld, 2⟩, ⟨0xD9, .f3 .cmpAbsY, 4⟩, ⟨0xDD, .f3 .cmpAbsX, 4⟩, ⟨0xDE, .f3 .decAbsX, 7⟩ ]

/-- Row E of the grid: codes 0xE0 to 0xEF. -/
def gridRowE : List OpRow :=
  [ ⟨0xE0, .f2 .cpxImm, 2⟩, ⟨0xE1, .f2 .sbcIndX, 6⟩, ⟨0xE4, .f2 .cpxZp, 3⟩, ⟨0xE5, .f2 .sbcZp, 3⟩,
    ⟨0xE6, .f2 .incZp, 5⟩, ⟨0xE8, .f1 .inx, 2⟩, ⟨0xE9, .f2 .sbcImm, 2⟩, ⟨0xEA, .f1 .nop, 2⟩,
    ⟨0xEC, .f3 .cpxAbs, 4⟩, ⟨0xED, .f3 .sbcAbs, 4⟩, ⟨0xEE, .f3 .incAbs, 6⟩ ]

/-- Row F of the grid: codes 0xF0 to 0xFF. -/
def gridRowF : List OpRow :=
  [ ⟨0xF0, .f2 .beq, 2⟩, ⟨0xF1, .f2 .sbcIndY, 5⟩, ⟨0xF5, .f2 .sbcZpX, 4⟩, ⟨0xF6, .f2 .incZpX, 6⟩,
    ⟨0xF8, .f1 .sed, 2⟩, ⟨0xF9, .f3 .sbcAbsY, 4⟩, ⟨0xFD, .f3 .sbcAbsX, 4⟩, ⟨0xFE, .f3 .incAbsX, 7⟩ ]

/-- The opcode map as the grid of R98, one list per high nibble of the code; an undefined code has no entry. -/
def grid : List (List OpRow) :=
  [ gridRow0, gridRow1, gridRow2, gridRow3, gridRow4, gridRow5, gridRow6, gridRow7,
    gridRow8, gridRow9, gridRowA, gridRowB, gridRowC, gridRowD, gridRowE, gridRowF ]

/-- The opcode table: 151 rows (R100), read-only (R101). -/
def opTable : List OpRow := grid.flatten

/-- Look a code up in a list of rows. -/
def findRow (op : Byte) : List OpRow → Option OpRow
  | [] => none
  | r :: rest => if r.code = op then some r else findRow op rest

/-- The grid row of a code: the first list is that of the codes from `base` on, each next one lies 16 higher. -/
def selectRow (op : Byte) (base : Nat) : List (List OpRow) → List OpRow
  | [] => []
  | row :: rest => if op.toNat < base + 16 then row else selectRow op (base + 16) rest

/-- `OPTABLE[op]`, or none where the row is absent (40_execution_core.md R121 stage 2): looked up in the grid row of the
code's high nibble. -/
def opRow (op : Byte) : Option OpRow := findRow op (selectRow op 0 grid)

/-- Why the decoder refuses. -/
inductive DecodeError where
  /-- The code has no row in the opcode table: one of the 105 undefined codes (R102). -/
  | undefinedCode (op : Byte)
  deriving DecidableEq, Repr

/-- The decoder: a lookup of all 8 bits of the opcode byte (R80, R104), then the operand bytes its format takes. `b1`
and `b2` are the two bytes after the opcode in memory; the longest instruction is 3 bytes. Total on any bytes. -/
def decode (op b1 b2 : Byte) : Except DecodeError Instr :=
  match opRow op with
  | some row => .ok (row.format.fill b1 b2)
  | none => .error (.undefinedCode op)

/-- The advisory cycle count of a code's row (R100, R293): no step reads it. -/
def advisoryCycles (op : Byte) : Option Nat := (opRow op).map OpRow.cycles

/-- The opcode byte of an instruction (R97, R98). -/
def Instr.opcode : Instr → Byte
  | .adcImm _ => 0x69
  | .adcZp _ => 0x65
  | .adcZpX _ => 0x75
  | .adcAbs _ => 0x6D
  | .adcAbsX _ => 0x7D
  | .adcAbsY _ => 0x79
  | .adcIndX _ => 0x61
  | .adcIndY _ => 0x71
  | .sbcImm _ => 0xE9
  | .sbcZp _ => 0xE5
  | .sbcZpX _ => 0xF5
  | .sbcAbs _ => 0xED
  | .sbcAbsX _ => 0xFD
  | .sbcAbsY _ => 0xF9
  | .sbcIndX _ => 0xE1
  | .sbcIndY _ => 0xF1
  | .andImm _ => 0x29
  | .andZp _ => 0x25
  | .andZpX _ => 0x35
  | .andAbs _ => 0x2D
  | .andAbsX _ => 0x3D
  | .andAbsY _ => 0x39
  | .andIndX _ => 0x21
  | .andIndY _ => 0x31
  | .oraImm _ => 0x09
  | .oraZp _ => 0x05
  | .oraZpX _ => 0x15
  | .oraAbs _ => 0x0D
  | .oraAbsX _ => 0x1D
  | .oraAbsY _ => 0x19
  | .oraIndX _ => 0x01
  | .oraIndY _ => 0x11
  | .eorImm _ => 0x49
  | .eorZp _ => 0x45
  | .eorZpX _ => 0x55
  | .eorAbs _ => 0x4D
  | .eorAbsX _ => 0x5D
  | .eorAbsY _ => 0x59
  | .eorIndX _ => 0x41
  | .eorIndY _ => 0x51
  | .aslZp _ => 0x06
  | .aslZpX _ => 0x16
  | .aslAbs _ => 0x0E
  | .aslAbsX _ => 0x1E
  | .aslAcc => 0x0A
  | .lsrZp _ => 0x46
  | .lsrZpX _ => 0x56
  | .lsrAbs _ => 0x4E
  | .lsrAbsX _ => 0x5E
  | .lsrAcc => 0x4A
  | .rolZp _ => 0x26
  | .rolZpX _ => 0x36
  | .rolAbs _ => 0x2E
  | .rolAbsX _ => 0x3E
  | .rolAcc => 0x2A
  | .rorZp _ => 0x66
  | .rorZpX _ => 0x76
  | .rorAbs _ => 0x6E
  | .rorAbsX _ => 0x7E
  | .rorAcc => 0x6A
  | .cmpImm _ => 0xC9
  | .cmpZp _ => 0xC5
  | .cmpZpX _ => 0xD5
  | .cmpAbs _ => 0xCD
  | .cmpAbsX _ => 0xDD
  | .cmpAbsY _ => 0xD9
  | .cmpIndX _ => 0xC1
  | .cmpIndY _ => 0xD1
  | .cpxImm _ => 0xE0
  | .cpxZp _ => 0xE4
  | .cpxAbs _ => 0xEC
  | .cpyImm _ => 0xC0
  | .cpyZp _ => 0xC4
  | .cpyAbs _ => 0xCC
  | .incZp _ => 0xE6
  | .incZpX _ => 0xF6
  | .incAbs _ => 0xEE
  | .incAbsX _ => 0xFE
  | .decZp _ => 0xC6
  | .decZpX _ => 0xD6
  | .decAbs _ => 0xCE
  | .decAbsX _ => 0xDE
  | .inx => 0xE8
  | .iny => 0xC8
  | .dex => 0xCA
  | .dey => 0x88
  | .bcc _ => 0x90
  | .bcs _ => 0xB0
  | .beq _ => 0xF0
  | .bne _ => 0xD0
  | .bmi _ => 0x30
  | .bpl _ => 0x10
  | .bvc _ => 0x50
  | .bvs _ => 0x70
  | .clc => 0x18
  | .cld => 0xD8
  | .cli => 0x58
  | .clv => 0xB8
  | .sec => 0x38
  | .sed => 0xF8
  | .sei => 0x78
  | .ldaImm _ => 0xA9
  | .ldaZp _ => 0xA5
  | .ldaZpX _ => 0xB5
  | .ldaAbs _ => 0xAD
  | .ldaAbsX _ => 0xBD
  | .ldaAbsY _ => 0xB9
  | .ldaIndX _ => 0xA1
  | .ldaIndY _ => 0xB1
  | .ldxImm _ => 0xA2
  | .ldxZp _ => 0xA6
  | .ldxZpY _ => 0xB6
  | .ldxAbs _ => 0xAE
  | .ldxAbsY _ => 0xBE
  | .ldyImm _ => 0xA0
  | .ldyZp _ => 0xA4
  | .ldyZpX _ => 0xB4
  | .ldyAbs _ => 0xAC
  | .ldyAbsX _ => 0xBC
  | .staZp _ => 0x85
  | .staZpX _ => 0x95
  | .staAbs _ => 0x8D
  | .staAbsX _ => 0x9D
  | .staAbsY _ => 0x99
  | .staIndX _ => 0x81
  | .staIndY _ => 0x91
  | .stxZp _ => 0x86
  | .stxZpY _ => 0x96
  | .stxAbs _ => 0x8E
  | .styZp _ => 0x84
  | .styZpX _ => 0x94
  | .styAbs _ => 0x8C
  | .tax => 0xAA
  | .tay => 0xA8
  | .txa => 0x8A
  | .tya => 0x98
  | .tsx => 0xBA
  | .txs => 0x9A
  | .pha => 0x48
  | .php => 0x08
  | .pla => 0x68
  | .plp => 0x28
  | .jsr _ => 0x20
  | .rts => 0x60
  | .jmpAbs _ => 0x4C
  | .jmpInd _ => 0x6C
  | .brk => 0x00
  | .rti => 0x40
  | .bitZp _ => 0x24
  | .bitAbs _ => 0x2C
  | .nop => 0xEA

/-- The bytes of an operand in increasing address order, a 16-bit operand low byte first (R81). -/
def Operand.bytes : Operand → List Byte
  | .immediate b | .zeroPage b | .zeroPageX b | .zeroPageY b | .indirectX b | .indirectY b | .relative b => [b]
  | .absolute w | .absoluteX w | .absoluteY w | .indirect w => [lowByte w, highByte w]
  | .none => []

/-- The encoder: the bytes of an instruction in increasing address order (R80, R81). -/
def encode (i : Instr) : List Byte := i.opcode :: i.operand.bytes

/-- Decode the instruction at the head of a list of bytes; a byte the list does not have counts as 0x00. -/
def decodeBytes (bytes : List Byte) : Except DecodeError Instr :=
  decode (bytes.getD 0 0) (bytes.getD 1 0) (bytes.getD 2 0)

/-- Byte `k` of an instruction given as a number of `nbits` bits, bit 0 the least significant bit of the first byte;
every bit from `nbits` on is 0. -/
def tableByte (nbits w k : Nat) : Byte := BitVec.ofNat 8 ((w % 2 ^ nbits) / 2 ^ (8 * k))

/-- The instruction the decoder reads from an instruction whose bits are `w`, numbered as spec/opcode_table.json
numbers them. -/
def decodeTableWord (nbits w : Nat) : Option Instr :=
  match decode (tableByte nbits w 0) (tableByte nbits w 1) (tableByte nbits w 2) with
  | .ok i => some i
  | .error _ => none

end Sys2Proof
end

