-- ==== Sys2Proof/Machine/State.lean ====
section
/-! DEFINITION. The machine's state as plain data, its faults and refusals, and the state after reset
(spec/10_state.md R20 to R42; spec/60_exceptions.md R250, R251). -/

namespace Sys2Proof.Machine

/-- The two faults of the spec (00_scope.md R16; 60_exceptions.md R252: there is no other). -/
inductive Fault where
  /-- The fetched code byte `op` at `opaddr` has no row in the opcode table (R250). Raised by the step at decode: the
  run state becomes Faulted with this record, and every later step answers it. Safe: the run has ended. -/
  | unrecognizedOpcode (op : Byte) (opaddr : Addr)
  /-- The instruction at `opaddr` needs an address and its mode yields none (R251). Raised after resolution, in the
  same way. Safe; unreachable with the opcode table (40_execution_core.md R123). -/
  | missingOperand (mne : Mnemonic) (opaddr : Addr)
  deriving DecidableEq, Repr

/-- Why the model has no next state though no fault is recorded. -/
inductive Refusal where
  /-- Answered only by an arm of `exec` whose instruction has no meaning yet. Safe: no claim about it can be proved. -/
  | notModelled (mnemonic : String)
  /-- Answered by the step when the run state is Halted: "A step happens only in `Running`" (10_state.md R40).
  Safe: the spec gives no step there; a caller starts a new run or resets (40_execution_core.md R128). -/
  | halted
  deriving DecidableEq, Repr

/-- The run state (10_state.md R40). -/
inductive RunState where
  | running
  | halted
  | faulted (f : Fault)
  deriving DecidableEq, Repr

/-- Memory as (address, byte) pairs in canonical form: addresses strictly rising and below 0x10000, and no entry
equal to what an unlisted address reads as (`Memory.blank` of Machine/Ops.lean; `Memory.wf` is the check). -/
abbrev Memory := List Host.Cell

/-- All the state the spec gives the machine (10_state.md R20, R41). -/
structure State where
  /-- The accumulator A (R21). -/
  a : Byte
  /-- The index register X (R22). -/
  x : Byte
  /-- The index register Y (R23). -/
  y : Byte
  /-- The stack pointer SP, an offset in the stack page (R25). -/
  sp : Byte
  /-- The status byte P, eight storage bits (R30, R31). -/
  p : Byte
  /-- The program counter (R24). -/
  pc : Addr
  /-- The 65536-byte memory (20_memory.md R50). -/
  mem : Memory
  /-- The run state (R40). -/
  run : RunState
  deriving DecidableEq, Repr

/-- The machine right after reset (10_state.md R42; 70_reset_and_hazards.md R283): `reset` of the core that `new` made,
so memory is all 0x00 and pc is the reset vector's 0x0000 (R288; log 1). -/
def State.reset : State where
  a := 0x00
  x := 0x00
  y := 0x00
  sp := 0x00
  p := 0x34
  pc := 0x0000
  mem := []
  run := .running

end Sys2Proof.Machine
end

