-- ==== Sys2Proof/Machine/Flags.lean ====
section
/-! DEFINITION. The status byte and every flag computation (spec/10_state.md R30 to R39; spec/41_arithmetic_logic.md
R140; spec/43_compare_incdec.md R160). -/

namespace Sys2Proof.Machine

/-- The eight flags of P (R30). -/
inductive Flag where
  /-- Carry. -/
  | c
  /-- Zero. -/
  | z
  /-- InterruptDisable: storage only (60_exceptions.md R256). -/
  | i
  /-- Decimal: storage only (41_arithmetic_logic.md R142). -/
  | d
  /-- Break. -/
  | b
  /-- Break2. -/
  | b2
  /-- Overflow. -/
  | v
  /-- Negative. -/
  | n
  deriving DecidableEq, Repr

/-- The bit of P that holds a flag (R30; the spec's decision D1). -/
def Flag.bit : Flag → Nat
  | .c => 0
  | .z => 1
  | .i => 2
  | .d => 3
  | .b => 4
  | .b2 => 5
  | .v => 6
  | .n => 7

/-- Read one flag of a status byte. -/
def flagOf (p : Byte) (f : Flag) : Bool := p.getLsbD f.bit

/-- The status byte with one flag written and the other seven bits as they were (R32). -/
def putFlag (p : Byte) (f : Flag) (on : Bool) : Byte :=
  if on then p ||| (1#8 <<< f.bit) else p &&& ~~~(1#8 <<< f.bit)

/-- Read one flag of P. -/
def State.flag (s : State) (f : Flag) : Bool := flagOf s.p f

/-- `set(flag, b)` (R32). -/
def State.setFlag (s : State) (f : Flag) (on : Bool) : State := { s with p := putFlag s.p f on }

/-- `SetZ(v)` (R33). -/
def State.setZ (s : State) (v : Byte) : State := s.setFlag .z (v == 0)

/-- `SetN(v)` (R34). -/
def State.setN (s : State) (v : Byte) : State := s.setFlag .n (v.getLsbD 7)

/-- `SetZN(v)`: SetZ, then SetN (R35). -/
def State.setZN (s : State) (v : Byte) : State := (s.setZ v).setN v

/-- `SetCarrySum(sum)` of a 16-bit intermediate sum (R36). -/
def State.setCarrySum (s : State) (sum : BitVec 16) : State := s.setFlag .c (decide (sum.toNat > 255))

/-- `set_overflow(b)` (R37). -/
def State.setOverflow (s : State) (on : Bool) : State := s.setFlag .v on

/-- A flag as a number: set is 1, clear is 0 (00_scope.md R13). -/
def flagBit (w : Nat) (on : Bool) : BitVec w := if on then 1 else 0

/-- The overflow rule of addition: `((m ^ r) & (r ^ A) & 0x80) != 0`, `A` the old accumulator (R140). -/
def addOverflow (a m r : Byte) : Bool := ((m ^^^ r) &&& (r ^^^ a) &&& 0x80) != 0

/-- `AddWithCarry(m)` (R140), binary whatever P.D holds (R142). -/
def State.addWithCarry (s : State) (m : Byte) : State :=
  let sum : BitVec 16 := s.a.setWidth 16 + m.setWidth 16 + flagBit 16 (s.flag .c)
  let r : Byte := sum.setWidth 8
  let flagged := (s.setCarrySum sum).setOverflow (addOverflow s.a m r)
  State.setZN { flagged with a := r } r

/-- `Compare(reg, m)` (R160): the register itself is not written. -/
def State.compare (s : State) (reg m : Byte) : State :=
  (s.setFlag .c (decide (m.toNat ≤ reg.toNat))).setZN (reg - m)

end Sys2Proof.Machine
end

