-- ==== Sys2Proof/Machine/Ops.lean ====
section
/-! DEFINITION. The named operations over registers, memory and the stack, the run state's changes, and the one
trap-like entry with its return (spec/20_memory.md R50 to R75; spec/60_exceptions.md R250 to R258). -/

namespace Sys2Proof.Machine

/-! ### Registers -/

/-- `A <- v` (10_state.md R21). -/
def State.withA (s : State) (v : Byte) : State := { s with a := v }

/-- `X <- v` (R22). -/
def State.withX (s : State) (v : Byte) : State := { s with x := v }

/-- `Y <- v` (R23). -/
def State.withY (s : State) (v : Byte) : State := { s with y := v }

/-- `SP <- v` (R25). -/
def State.withSp (s : State) (v : Byte) : State := { s with sp := v }

/-- `P <- v`: all eight bits (R31, R39). -/
def State.withP (s : State) (v : Byte) : State := { s with p := v }

/-- `pc <- v`: any 16-bit value is legal (R24). -/
def State.withPc (s : State) (v : Addr) : State := { s with pc := v }

/-- `run <- r` (R40). -/
def State.withRun (s : State) (r : RunState) : State := { s with run := r }

/-- Replace the memory. -/
def State.withMem (s : State) (m : Memory) : State := { s with mem := m }

/-- Move pc past `n` bytes, modulo 0x10000 (R24). -/
def State.advancePc (s : State) (n : Nat) : State := s.withPc (s.pc + BitVec.ofNat 16 n)

/-! ### Memory -/

/-- What an address that is not listed reads as: 0x00, the content construction gives every byte
(70_reset_and_hazards.md R280; log 2). -/
def Memory.blank : Byte := 0x00

/-- The byte at an address. -/
def Memory.get : Memory → Nat → Byte
  | [], _ => Memory.blank
  | (k, b) :: rest, addr => if k = addr then b else Memory.get rest addr

/-- The memory with no entry for an address. -/
def Memory.erase : Memory → Nat → Memory
  | [], _ => []
  | (k, b) :: rest, addr => if k = addr then Memory.erase rest addr else (k, b) :: Memory.erase rest addr

/-- The memory with an entry put before the first listed address above it. -/
def Memory.insert : Memory → Nat → Byte → Memory
  | [], addr, v => [(addr, v)]
  | (k, b) :: rest, addr, v =>
    if addr < k then (addr, v) :: (k, b) :: rest else (k, b) :: Memory.insert rest addr v

/-- The memory with one byte written, in canonical form: a blank byte is not listed. -/
def Memory.set (m : Memory) (addr : Nat) (v : Byte) : Memory :=
  if v = Memory.blank then Memory.erase m addr else Memory.insert (Memory.erase m addr) addr v

/-- Every listed address is at least `lo`, they rise strictly and stay below 0x10000, and no listed byte is blank. -/
def Memory.risingFrom : Nat → Memory → Bool
  | _, [] => true
  | lo, (k, b) :: rest =>
    decide (lo ≤ k) && decide (k < 0x10000) && (b != Memory.blank) && Memory.risingFrom (k + 1) rest

/-- The canonical form of memory: equal memories are equal lists. -/
def Memory.wf (m : Memory) : Bool := Memory.risingFrom 0 m

/-- `MemRead(addr, 1)` (20_memory.md R51): no other effect, no fault. -/
def State.readByte (s : State) (addr : Addr) : Byte := Memory.get s.mem addr.toNat

/-- `MemRead(addr, 2)`: little-endian, the second byte at `addr + 1` modulo 0x10000 (R52, R55). -/
def State.readWord (s : State) (addr : Addr) : Addr := wordOf (s.readByte addr) (s.readByte (addr + 1))

/-- `MemWrite(addr, 1, v)` (R53). -/
def State.writeByte (s : State) (addr : Addr) (v : Byte) : State := s.withMem (Memory.set s.mem addr.toNat v)

/-- `MemWrite(addr, 2, v)`: the low byte first (R54, R55). -/
def State.writeWord (s : State) (addr : Addr) (v : Addr) : State :=
  (s.writeByte addr (lowByte v)).writeByte (addr + 1) (highByte v)

/-! ### The stack (it grows upward: R60, D25) -/

/-- The physical stack address `0x0100 + zext_16(SP)` (10_state.md R25). -/
def stackAddr (sp : Byte) : Addr := 0x0100 + sp.setWidth 16

/-- `Push8(v)` (R60). -/
def State.push8 (s : State) (v : Byte) : State := (s.writeByte (stackAddr s.sp) v).withSp (s.sp + 1)

/-- `Push16(v)` (R61): at SP = 0xFF the high byte goes to 0x0200 (D7). -/
def State.push16 (s : State) (v : Addr) : State := (s.writeWord (stackAddr s.sp) v).withSp (s.sp + 2)

/-- `Pop8()` (R62): the byte and the state with SP retreated. -/
def State.pop8 (s : State) : Byte × State := (s.readByte (stackAddr (s.sp - 1)), s.withSp (s.sp - 1))

/-- `Pop16()` (R63): the word and the state with SP retreated; at SP = 0xFF after the retreat the high byte is read
from 0x0200 (D7). -/
def State.pop16 (s : State) : Addr × State := (s.readWord (stackAddr (s.sp - 2)), s.withSp (s.sp - 2))

/-! ### The run state, faults, the trap-like entry and its return -/

/-- `raise <Fault>(info)`: the run state becomes Faulted with the record; nothing is pushed, no vector is read
(00_scope.md R16; 60_exceptions.md R253). -/
def State.raise (s : State) (f : Fault) : State := s.withRun (.faulted f)

/-- `run <- Halted` (40_execution_core.md R121 stage 5, R125). -/
def State.halt (s : State) : State := s.withRun .halted

/-- The reset vector (00_scope.md R9). -/
def resetVector : Addr := 0xFFFC

/-- The interrupt (BRK) vector (R9). -/
def breakVector : Addr := 0xFFFE

/-- The state an undefined code `op` at pc leaves: pc past the code byte, the fault recorded, nothing else written
(R250, R253). -/
def State.unrecognized (s : State) (op : Byte) : State := (s.advancePc 1).raise (.unrecognizedOpcode op s.pc)

/-- Taking the BRK trap (R240, R255), with pc at the address after the BRK: push pc, then P as it is; load pc from the
interrupt vector; then set B and B2. I is unchanged and there is no mode to change. -/
def State.enterBreak (s : State) : State :=
  let pushed := (s.push16 s.pc).push8 s.p
  ((pushed.withPc (pushed.readWord breakVector)).setFlag .b true).setFlag .b2 true

/-- The return (R241, R257): pull P, all eight bits, then pull pc. -/
def State.returnFromBreak (s : State) : State :=
  let status := s.pop8
  let target := (status.2.withP status.1).pop16
  target.2.withPc target.1

end Sys2Proof.Machine
end

