-- ==== Sys2Proof/Machine/Operands.lean ====
section
/-! DEFINITION. The addressing modes (spec/30_encoding.md R83 to R96), the operand location of the shifts
(spec/42_shift_rotate.md R150), and the frame every meaning runs in: fetch, resolve, the operand check, execute
(spec/40_execution_core.md R121, R123). -/

namespace Sys2Proof.Machine

/-- The address `Resolve` yields, with pc at the first byte after the opcode (R84 to R95). The operand bytes are those
the decoder read from the instruction stream at pc. -/
def effectiveAddress (op : Operand) (s : State) : Option Addr :=
  match op with
  | .immediate _ => some s.pc
  | .zeroPage zp => some (zp.setWidth 16)
  | .zeroPageX zp => some ((zp + s.x).setWidth 16)
  | .zeroPageY zp => some ((zp + s.y).setWidth 16)
  | .absolute addr => some addr
  | .absoluteX addr => some (addr + s.x.setWidth 16)
  | .absoluteY addr => some (addr + s.y.setWidth 16)
  | .indirect ptr => some (s.readWord ptr)
  | .indirectX zp => some (s.readWord ((zp + s.x).setWidth 16))
  | .indirectY zp => some (s.readWord (zp.setWidth 16) + s.y.setWidth 16)
  | .relative d => some (s.pc + 1 + d.signExtend 16)
  | .none => none

/-- `Resolve(mode)` (R83): the address, and the state with pc past the operand bytes. It writes nothing else (R96). -/
def resolve (op : Operand) (s : State) : Option Addr × State := (effectiveAddress op s, s.advancePc op.size)

/-- The byte `MemRead(ea, 1)` gives. For Immediate, whose ea is the operand byte's own address (R84), it is that byte
as the decoder read it (log 9). -/
def operandByte (op : Operand) (s : State) : Option Byte :=
  match op with
  | .immediate v => some v
  | _ => (effectiveAddress op s).map s.readByte

/-- The operand location of ASL, LSR, ROL and ROR (42_shift_rotate.md R150). -/
inductive Loc where
  | accumulator
  | memoryAt (addr : Addr)
  deriving DecidableEq, Repr

/-- `Loc(ea)`: the accumulator if no address was resolved (R150). -/
def locOf : Option Addr → Loc
  | none => .accumulator
  | some addr => .memoryAt addr

/-- `Get` (R150). -/
def State.getLoc (s : State) : Loc → Byte
  | .accumulator => s.a
  | .memoryAt addr => s.readByte addr

/-- `Set` (R150). -/
def State.setLoc (s : State) (l : Loc) (v : Byte) : State :=
  match l with
  | .accumulator => s.withA v
  | .memoryAt addr => s.writeByte addr v

/-- What a meaning answers. -/
abbrev Result := Host.Outcome State Fault Refusal

/-- The state at the start of `Execute`: pc past the opcode and the operand bytes (R121, R124). -/
def State.afterFetch (s : State) (op : Operand) : State := s.advancePc (1 + op.size)

/-- The state a missing operand leaves: after `Resolve`, with the fault recorded (R251, R253). -/
def State.missing (s : State) (m : Mnemonic) (op : Operand) : State :=
  (s.afterFetch op).raise (.missingOperand m s.pc)

/-- Run a semantic function that needs a resolved address (R121, R123: `Needs(mne) = address`). -/
def withAddress (m : Mnemonic) (op : Operand) (f : Addr → State → State) (s : State) : Result :=
  match effectiveAddress op (s.advancePc 1) with
  | some ea => .next (f ea (s.afterFetch op))
  | none => .next (s.missing m op)

/-- Run a semantic function that reads the byte at the resolved address (`Needs(mne) = address`). -/
def withByte (m : Mnemonic) (op : Operand) (f : Byte → State → State) (s : State) : Result :=
  match operandByte op (s.advancePc 1) with
  | some byte => .next (f byte (s.afterFetch op))
  | none => .next (s.missing m op)

/-- Run a semantic function that takes an address or the accumulator (`Needs(mne) = either`). -/
def withLoc (op : Operand) (f : Loc → State → State) (s : State) : Result :=
  .next (f (locOf (effectiveAddress op (s.advancePc 1))) (s.afterFetch op))

/-- Run a semantic function that ignores the address (`Needs(mne) = none`). -/
def implied (f : State → State) (s : State) : Result := .next (f (s.afterFetch .none))

end Sys2Proof.Machine

namespace Sys2Proof

open Machine

/-- The address the instruction `i` at pc resolves to, or none. -/
def Instr.ea (i : Instr) (s : State) : Option Addr := effectiveAddress i.operand (s.advancePc 1)

/-- The byte the instruction `i` at pc reads as its operand, or none. -/
def Instr.readOperand (i : Instr) (s : State) : Option Byte := operandByte i.operand (s.advancePc 1)

end Sys2Proof
end

