-- ==== Sys2Proof/Machine/Arithmetic.lean ====
section
/-! DEFINITION. Arithmetic and logic: ADC, SBC, AND, ORA, EOR (spec/41_arithmetic_logic.md, R140 to R147). For each mnemonic its semantic
function (R122), and for each of its opcode-table rows the meaning of that row. -/

namespace Sys2Proof.Machine

/-- ADC (R141): `m <- MemRead(ea, 1); AddWithCarry(m)`. -/
def semAdc (m : Byte) (s : State) : State := s.addWithCarry m

/-- ADC Immediate, 0x69. -/
def execAdcImm (v : Byte) (s : State) : Result := withByte .adc (.immediate v) semAdc s

/-- ADC ZeroPage, 0x65. -/
def execAdcZp (zp : Byte) (s : State) : Result := withByte .adc (.zeroPage zp) semAdc s

/-- ADC ZeroPageX, 0x75. -/
def execAdcZpX (zp : Byte) (s : State) : Result := withByte .adc (.zeroPageX zp) semAdc s

/-- ADC Absolute, 0x6D. -/
def execAdcAbs (addr : Addr) (s : State) : Result := withByte .adc (.absolute addr) semAdc s

/-- ADC AbsoluteX, 0x7D. -/
def execAdcAbsX (addr : Addr) (s : State) : Result := withByte .adc (.absoluteX addr) semAdc s

/-- ADC AbsoluteY, 0x79. -/
def execAdcAbsY (addr : Addr) (s : State) : Result := withByte .adc (.absoluteY addr) semAdc s

/-- ADC IndirectX, 0x61. -/
def execAdcIndX (zp : Byte) (s : State) : Result := withByte .adc (.indirectX zp) semAdc s

/-- ADC IndirectY, 0x71. -/
def execAdcIndY (zp : Byte) (s : State) : Result := withByte .adc (.indirectY zp) semAdc s

/-- SBC (R143): the ADC path with `(0 - m - 1) mod 256`. -/
def semSbc (m : Byte) (s : State) : State := s.addWithCarry (0 - m - 1)

/-- SBC Immediate, 0xE9. -/
def execSbcImm (v : Byte) (s : State) : Result := withByte .sbc (.immediate v) semSbc s

/-- SBC ZeroPage, 0xE5. -/
def execSbcZp (zp : Byte) (s : State) : Result := withByte .sbc (.zeroPage zp) semSbc s

/-- SBC ZeroPageX, 0xF5. -/
def execSbcZpX (zp : Byte) (s : State) : Result := withByte .sbc (.zeroPageX zp) semSbc s

/-- SBC Absolute, 0xED. -/
def execSbcAbs (addr : Addr) (s : State) : Result := withByte .sbc (.absolute addr) semSbc s

/-- SBC AbsoluteX, 0xFD. -/
def execSbcAbsX (addr : Addr) (s : State) : Result := withByte .sbc (.absoluteX addr) semSbc s

/-- SBC AbsoluteY, 0xF9. -/
def execSbcAbsY (addr : Addr) (s : State) : Result := withByte .sbc (.absoluteY addr) semSbc s

/-- SBC IndirectX, 0xE1. -/
def execSbcIndX (zp : Byte) (s : State) : Result := withByte .sbc (.indirectX zp) semSbc s

/-- SBC IndirectY, 0xF1. -/
def execSbcIndY (zp : Byte) (s : State) : Result := withByte .sbc (.indirectY zp) semSbc s

/-- AND (R144). -/
def semAnd (m : Byte) (s : State) : State := (s.withA (s.a &&& m)).setZN (s.a &&& m)

/-- AND Immediate, 0x29. -/
def execAndImm (v : Byte) (s : State) : Result := withByte .and (.immediate v) semAnd s

/-- AND ZeroPage, 0x25. -/
def execAndZp (zp : Byte) (s : State) : Result := withByte .and (.zeroPage zp) semAnd s

/-- AND ZeroPageX, 0x35. -/
def execAndZpX (zp : Byte) (s : State) : Result := withByte .and (.zeroPageX zp) semAnd s

/-- AND Absolute, 0x2D. -/
def execAndAbs (addr : Addr) (s : State) : Result := withByte .and (.absolute addr) semAnd s

/-- AND AbsoluteX, 0x3D. -/
def execAndAbsX (addr : Addr) (s : State) : Result := withByte .and (.absoluteX addr) semAnd s

/-- AND AbsoluteY, 0x39. -/
def execAndAbsY (addr : Addr) (s : State) : Result := withByte .and (.absoluteY addr) semAnd s

/-- AND IndirectX, 0x21. -/
def execAndIndX (zp : Byte) (s : State) : Result := withByte .and (.indirectX zp) semAnd s

/-- AND IndirectY, 0x31. -/
def execAndIndY (zp : Byte) (s : State) : Result := withByte .and (.indirectY zp) semAnd s

/-- ORA (R145). -/
def semOra (m : Byte) (s : State) : State := (s.withA (s.a ||| m)).setZN (s.a ||| m)

/-- ORA Immediate, 0x09. -/
def execOraImm (v : Byte) (s : State) : Result := withByte .ora (.immediate v) semOra s

/-- ORA ZeroPage, 0x05. -/
def execOraZp (zp : Byte) (s : State) : Result := withByte .ora (.zeroPage zp) semOra s

/-- ORA ZeroPageX, 0x15. -/
def execOraZpX (zp : Byte) (s : State) : Result := withByte .ora (.zeroPageX zp) semOra s

/-- ORA Absolute, 0x0D. -/
def execOraAbs (addr : Addr) (s : State) : Result := withByte .ora (.absolute addr) semOra s

/-- ORA AbsoluteX, 0x1D. -/
def execOraAbsX (addr : Addr) (s : State) : Result := withByte .ora (.absoluteX addr) semOra s

/-- ORA AbsoluteY, 0x19. -/
def execOraAbsY (addr : Addr) (s : State) : Result := withByte .ora (.absoluteY addr) semOra s

/-- ORA IndirectX, 0x01. -/
def execOraIndX (zp : Byte) (s : State) : Result := withByte .ora (.indirectX zp) semOra s

/-- ORA IndirectY, 0x11. -/
def execOraIndY (zp : Byte) (s : State) : Result := withByte .ora (.indirectY zp) semOra s

/-- EOR (R146). -/
def semEor (m : Byte) (s : State) : State := (s.withA (s.a ^^^ m)).setZN (s.a ^^^ m)

/-- EOR Immediate, 0x49. -/
def execEorImm (v : Byte) (s : State) : Result := withByte .eor (.immediate v) semEor s

/-- EOR ZeroPage, 0x45. -/
def execEorZp (zp : Byte) (s : State) : Result := withByte .eor (.zeroPage zp) semEor s

/-- EOR ZeroPageX, 0x55. -/
def execEorZpX (zp : Byte) (s : State) : Result := withByte .eor (.zeroPageX zp) semEor s

/-- EOR Absolute, 0x4D. -/
def execEorAbs (addr : Addr) (s : State) : Result := withByte .eor (.absolute addr) semEor s

/-- EOR AbsoluteX, 0x5D. -/
def execEorAbsX (addr : Addr) (s : State) : Result := withByte .eor (.absoluteX addr) semEor s

/-- EOR AbsoluteY, 0x59. -/
def execEorAbsY (addr : Addr) (s : State) : Result := withByte .eor (.absoluteY addr) semEor s

/-- EOR IndirectX, 0x41. -/
def execEorIndX (zp : Byte) (s : State) : Result := withByte .eor (.indirectX zp) semEor s

/-- EOR IndirectY, 0x51. -/
def execEorIndY (zp : Byte) (s : State) : Result := withByte .eor (.indirectY zp) semEor s

end Sys2Proof.Machine
end

