-- ==== Sys2Proof/Machine/Branch.lean ====
section
/-! DEFINITION. Conditional branches: BCC, BCS, BEQ, BNE, BMI, BPL, BVC, BVS (spec/44_branch.md, R175 to R183). For each mnemonic its semantic
function (R122), and for each of its opcode-table rows the meaning of that row. -/

namespace Sys2Proof.Machine

/-- `Branch(cond)` (R175), the condition being that a flag has a value: pc becomes the target, or stays at the address
after the branch. -/
def State.branch (s : State) (f : Flag) (want : Bool) (ea : Addr) : State :=
  if s.flag f = want then s.withPc ea else s

/-- BCC (R176): taken when C = 0. -/
def semBcc (ea : Addr) (s : State) : State := s.branch .c false ea

/-- BCC Relative, 0x90. -/
def execBcc (d : Byte) (s : State) : Result := withAddress .bcc (.relative d) semBcc s

/-- BCS (R177): taken when C = 1. -/
def semBcs (ea : Addr) (s : State) : State := s.branch .c true ea

/-- BCS Relative, 0xB0. -/
def execBcs (d : Byte) (s : State) : Result := withAddress .bcs (.relative d) semBcs s

/-- BEQ (R178): taken when Z = 1. -/
def semBeq (ea : Addr) (s : State) : State := s.branch .z true ea

/-- BEQ Relative, 0xF0. -/
def execBeq (d : Byte) (s : State) : Result := withAddress .beq (.relative d) semBeq s

/-- BNE (R179): taken when Z = 0. -/
def semBne (ea : Addr) (s : State) : State := s.branch .z false ea

/-- BNE Relative, 0xD0. -/
def execBne (d : Byte) (s : State) : Result := withAddress .bne (.relative d) semBne s

/-- BMI (R180): taken when N = 1. -/
def semBmi (ea : Addr) (s : State) : State := s.branch .n true ea

/-- BMI Relative, 0x30. -/
def execBmi (d : Byte) (s : State) : Result := withAddress .bmi (.relative d) semBmi s

/-- BPL (R181): taken when N = 0. -/
def semBpl (ea : Addr) (s : State) : State := s.branch .n false ea

/-- BPL Relative, 0x10. -/
def execBpl (d : Byte) (s : State) : Result := withAddress .bpl (.relative d) semBpl s

/-- BVC (R182): taken when V = 0. -/
def semBvc (ea : Addr) (s : State) : State := s.branch .v false ea

/-- BVC Relative, 0x50. -/
def execBvc (d : Byte) (s : State) : Result := withAddress .bvc (.relative d) semBvc s

/-- BVS (R183): taken when V = 1. -/
def semBvs (ea : Addr) (s : State) : State := s.branch .v true ea

/-- BVS Relative, 0x70. -/
def execBvs (d : Byte) (s : State) : Result := withAddress .bvs (.relative d) semBvs s

end Sys2Proof.Machine
end

