-- ==== Sys2Proof/Machine/CompareIncDec.lean ====
section
/-! DEFINITION. Compares, increments and decrements: CMP, CPX, CPY, INC, DEC, INX, INY, DEX, DEY (spec/43_compare_incdec.md, R160 to R169). For each mnemonic its semantic
function (R122), and for each of its opcode-table rows the meaning of that row. -/

namespace Sys2Proof.Machine

/-- CMP (R161): A against the operand. -/
def semCmp (m : Byte) (s : State) : State := s.compare s.a m

/-- CMP Immediate, 0xC9. -/
def execCmpImm (v : Byte) (s : State) : Result := withByte .cmp (.immediate v) semCmp s

/-- CMP ZeroPage, 0xC5. -/
def execCmpZp (zp : Byte) (s : State) : Result := withByte .cmp (.zeroPage zp) semCmp s

/-- CMP ZeroPageX, 0xD5. -/
def execCmpZpX (zp : Byte) (s : State) : Result := withByte .cmp (.zeroPageX zp) semCmp s

/-- CMP Absolute, 0xCD. -/
def execCmpAbs (addr : Addr) (s : State) : Result := withByte .cmp (.absolute addr) semCmp s

/-- CMP AbsoluteX, 0xDD. -/
def execCmpAbsX (addr : Addr) (s : State) : Result := withByte .cmp (.absoluteX addr) semCmp s

/-- CMP AbsoluteY, 0xD9. -/
def execCmpAbsY (addr : Addr) (s : State) : Result := withByte .cmp (.absoluteY addr) semCmp s

/-- CMP IndirectX, 0xC1. -/
def execCmpIndX (zp : Byte) (s : State) : Result := withByte .cmp (.indirectX zp) semCmp s

/-- CMP IndirectY, 0xD1. -/
def execCmpIndY (zp : Byte) (s : State) : Result := withByte .cmp (.indirectY zp) semCmp s

/-- CPX (R162): X against the operand. -/
def semCpx (m : Byte) (s : State) : State := s.compare s.x m

/-- CPX Immediate, 0xE0. -/
def execCpxImm (v : Byte) (s : State) : Result := withByte .cpx (.immediate v) semCpx s

/-- CPX ZeroPage, 0xE4. -/
def execCpxZp (zp : Byte) (s : State) : Result := withByte .cpx (.zeroPage zp) semCpx s

/-- CPX Absolute, 0xEC. -/
def execCpxAbs (addr : Addr) (s : State) : Result := withByte .cpx (.absolute addr) semCpx s

/-- CPY (R163): Y against the operand. -/
def semCpy (m : Byte) (s : State) : State := s.compare s.y m

/-- CPY Immediate, 0xC0. -/
def execCpyImm (v : Byte) (s : State) : Result := withByte .cpy (.immediate v) semCpy s

/-- CPY ZeroPage, 0xC4. -/
def execCpyZp (zp : Byte) (s : State) : Result := withByte .cpy (.zeroPage zp) semCpy s

/-- CPY Absolute, 0xCC. -/
def execCpyAbs (addr : Addr) (s : State) : Result := withByte .cpy (.absolute addr) semCpy s

/-- INC (R164): C is not written. -/
def semInc (ea : Addr) (s : State) : State :=
  (s.writeByte ea (s.readByte ea + 1)).setZN (s.readByte ea + 1)

/-- INC ZeroPage, 0xE6. -/
def execIncZp (zp : Byte) (s : State) : Result := withAddress .inc (.zeroPage zp) semInc s

/-- INC ZeroPageX, 0xF6. -/
def execIncZpX (zp : Byte) (s : State) : Result := withAddress .inc (.zeroPageX zp) semInc s

/-- INC Absolute, 0xEE. -/
def execIncAbs (addr : Addr) (s : State) : Result := withAddress .inc (.absolute addr) semInc s

/-- INC AbsoluteX, 0xFE. -/
def execIncAbsX (addr : Addr) (s : State) : Result := withAddress .inc (.absoluteX addr) semInc s

/-- DEC (R165): C is not written. -/
def semDec (ea : Addr) (s : State) : State :=
  (s.writeByte ea (s.readByte ea - 1)).setZN (s.readByte ea - 1)

/-- DEC ZeroPage, 0xC6. -/
def execDecZp (zp : Byte) (s : State) : Result := withAddress .dec (.zeroPage zp) semDec s

/-- DEC ZeroPageX, 0xD6. -/
def execDecZpX (zp : Byte) (s : State) : Result := withAddress .dec (.zeroPageX zp) semDec s

/-- DEC Absolute, 0xCE. -/
def execDecAbs (addr : Addr) (s : State) : Result := withAddress .dec (.absolute addr) semDec s

/-- DEC AbsoluteX, 0xDE. -/
def execDecAbsX (addr : Addr) (s : State) : Result := withAddress .dec (.absoluteX addr) semDec s

/-- INX (R166). -/
def semInx (s : State) : State := (s.withX (s.x + 1)).setZN (s.x + 1)

/-- INX NoneAddressing, 0xE8. -/
def execInx (s : State) : Result := implied semInx s

/-- INY (R167). -/
def semIny (s : State) : State := (s.withY (s.y + 1)).setZN (s.y + 1)

/-- INY NoneAddressing, 0xC8. -/
def execIny (s : State) : Result := implied semIny s

/-- DEX (R168). -/
def semDex (s : State) : State := (s.withX (s.x - 1)).setZN (s.x - 1)

/-- DEX NoneAddressing, 0xCA. -/
def execDex (s : State) : Result := implied semDex s

/-- DEY (R169). -/
def semDey (s : State) : State := (s.withY (s.y - 1)).setZN (s.y - 1)

/-- DEY NoneAddressing, 0x88. -/
def execDey (s : State) : Result := implied semDey s

end Sys2Proof.Machine
end

