-- ==== Sys2Proof/Machine/FlagOps.lean ====
section
/-! DEFINITION. Flag set and clear: CLC, CLD, CLI, CLV, SEC, SED, SEI (spec/45_flag.md, R190 to R196). For each mnemonic its semantic
function (R122), and for each of its opcode-table rows the meaning of that row. -/

namespace Sys2Proof.Machine

/-- CLC (R190). -/
def semClc (s : State) : State := s.setFlag .c false

/-- CLC NoneAddressing, 0x18. -/
def execClc (s : State) : Result := implied semClc s

/-- CLD (R191). -/
def semCld (s : State) : State := s.setFlag .d false

/-- CLD NoneAddressing, 0xD8. -/
def execCld (s : State) : Result := implied semCld s

/-- CLI (R192): only the stored bit; no interrupt is ever taken (60_exceptions.md R256). -/
def semCli (s : State) : State := s.setFlag .i false

/-- CLI NoneAddressing, 0x58. -/
def execCli (s : State) : Result := implied semCli s

/-- CLV (R193). -/
def semClv (s : State) : State := s.setFlag .v false

/-- CLV NoneAddressing, 0xB8. -/
def execClv (s : State) : Result := implied semClv s

/-- SEC (R194). -/
def semSec (s : State) : State := s.setFlag .c true

/-- SEC NoneAddressing, 0x38. -/
def execSec (s : State) : Result := implied semSec s

/-- SED (R195): only the stored bit; arithmetic stays binary (R142). -/
def semSed (s : State) : State := s.setFlag .d true

/-- SED NoneAddressing, 0xF8. -/
def execSed (s : State) : Result := implied semSed s

/-- SEI (R196). -/
def semSei (s : State) : State := s.setFlag .i true

/-- SEI NoneAddressing, 0x78. -/
def execSei (s : State) : Result := implied semSei s

end Sys2Proof.Machine
end

