-- ==== Sys2Proof/Machine/InterruptMisc.lean ====
section
/-! DEFINITION. Break, return from interrupt, bit test, no-op: BRK, RTI, BIT, NOP (spec/49_interrupt_misc.md, R240 to R243). For each mnemonic its semantic
function (R122), and for each of its opcode-table rows the meaning of that row. -/

namespace Sys2Proof.Machine

/-- BRK (R240): take the trap, then the run halts (R125). -/
def semBrk (s : State) : State := s.enterBreak.halt

/-- BRK NoneAddressing, 0x00. -/
def execBrk (s : State) : Result := implied semBrk s

/-- RTI (R241). -/
def semRti (s : State) : State := s.returnFromBreak

/-- RTI NoneAddressing, 0x40. -/
def execRti (s : State) : Result := implied semRti s

/-- BIT (R242): V and N come from the operand alone. -/
def semBit (m : Byte) (s : State) : State :=
  ((s.setFlag .z (s.a &&& m == 0)).setFlag .v (m.getLsbD 6)).setFlag .n (m.getLsbD 7)

/-- BIT ZeroPage, 0x24. -/
def execBitZp (zp : Byte) (s : State) : Result := withByte .bit (.zeroPage zp) semBit s

/-- BIT Absolute, 0x2C. -/
def execBitAbs (addr : Addr) (s : State) : Result := withByte .bit (.absolute addr) semBit s

/-- NOP (R243): only the pc advance. -/
def semNop (s : State) : State := s

/-- NOP NoneAddressing, 0xEA. -/
def execNop (s : State) : Result := implied semNop s

end Sys2Proof.Machine
end

