-- ==== Sys2Proof/Machine/Jump.lean ====
section
/-! DEFINITION. Jumps and subroutines: JSR, RTS, JMP (spec/48_jump_subroutine.md, R230 to R232). For each mnemonic its semantic
function (R122), and for each of its opcode-table rows the meaning of that row. -/

namespace Sys2Proof.Machine

/-- JSR (R230): pushes the address after the instruction (90_conflicts.md C1; D10), then jumps. -/
def semJsr (ea : Addr) (s : State) : State := (s.push16 s.pc).withPc ea

/-- JSR Absolute, 0x20. -/
def execJsr (addr : Addr) (s : State) : Result := withAddress .jsr (.absolute addr) semJsr s

/-- RTS (R231): no 1 is added. -/
def semRts (s : State) : State := s.pop16.2.withPc s.pop16.1

/-- RTS NoneAddressing, 0x60. -/
def execRts (s : State) : Result := implied semRts s

/-- JMP (R232). -/
def semJmp (ea : Addr) (s : State) : State := s.withPc ea

/-- JMP Absolute, 0x4C. -/
def execJmpAbs (addr : Addr) (s : State) : Result := withAddress .jmp (.absolute addr) semJmp s

/-- JMP Indirect, 0x6C. -/
def execJmpInd (ptr : Addr) (s : State) : Result := withAddress .jmp (.indirect ptr) semJmp s

end Sys2Proof.Machine
end

