-- ==== Sys2Proof/Machine/LoadStoreTransfer.lean ====
section
/-! DEFINITION. Loads, stores and transfers: LDA, LDX, LDY, STA, STX, STY, TAX, TAY, TXA, TYA, TSX, TXS (spec/46_load_store_transfer.md, R200 to R211). For each mnemonic its semantic
function (R122), and for each of its opcode-table rows the meaning of that row. -/

namespace Sys2Proof.Machine

/-- LDA (R200). -/
def semLda (m : Byte) (s : State) : State := (s.withA m).setZN m

/-- LDA Immediate, 0xA9. -/
def execLdaImm (v : Byte) (s : State) : Result := withByte .lda (.immediate v) semLda s

/-- LDA ZeroPage, 0xA5. -/
def execLdaZp (zp : Byte) (s : State) : Result := withByte .lda (.zeroPage zp) semLda s

/-- LDA ZeroPageX, 0xB5. -/
def execLdaZpX (zp : Byte) (s : State) : Result := withByte .lda (.zeroPageX zp) semLda s

/-- LDA Absolute, 0xAD. -/
def execLdaAbs (addr : Addr) (s : State) : Result := withByte .lda (.absolute addr) semLda s

/-- LDA AbsoluteX, 0xBD. -/
def execLdaAbsX (addr : Addr) (s : State) : Result := withByte .lda (.absoluteX addr) semLda s

/-- LDA AbsoluteY, 0xB9. -/
def execLdaAbsY (addr : Addr) (s : State) : Result := withByte .lda (.absoluteY addr) semLda s

/-- LDA IndirectX, 0xA1. -/
def execLdaIndX (zp : Byte) (s : State) : Result := withByte .lda (.indirectX zp) semLda s

/-- LDA IndirectY, 0xB1. -/
def execLdaIndY (zp : Byte) (s : State) : Result := withByte .lda (.indirectY zp) semLda s

/-- LDX (R201). -/
def semLdx (m : Byte) (s : State) : State := (s.withX m).setZN m

/-- LDX Immediate, 0xA2. -/
def execLdxImm (v : Byte) (s : State) : Result := withByte .ldx (.immediate v) semLdx s

/-- LDX ZeroPage, 0xA6. -/
def execLdxZp (zp : Byte) (s : State) : Result := withByte .ldx (.zeroPage zp) semLdx s

/-- LDX ZeroPageY, 0xB6. -/
def execLdxZpY (zp : Byte) (s : State) : Result := withByte .ldx (.zeroPageY zp) semLdx s

/-- LDX Absolute, 0xAE. -/
def execLdxAbs (addr : Addr) (s : State) : Result := withByte .ldx (.absolute addr) semLdx s

/-- LDX AbsoluteY, 0xBE. -/
def execLdxAbsY (addr : Addr) (s : State) : Result := withByte .ldx (.absoluteY addr) semLdx s

/-- LDY (R202). -/
def semLdy (m : Byte) (s : State) : State := (s.withY m).setZN m

/-- LDY Immediate, 0xA0. -/
def execLdyImm (v : Byte) (s : State) : Result := withByte .ldy (.immediate v) semLdy s

/-- LDY ZeroPage, 0xA4. -/
def execLdyZp (zp : Byte) (s : State) : Result := withByte .ldy (.zeroPage zp) semLdy s

/-- LDY ZeroPageX, 0xB4. -/
def execLdyZpX (zp : Byte) (s : State) : Result := withByte .ldy (.zeroPageX zp) semLdy s

/-- LDY Absolute, 0xAC. -/
def execLdyAbs (addr : Addr) (s : State) : Result := withByte .ldy (.absolute addr) semLdy s

/-- LDY AbsoluteX, 0xBC. -/
def execLdyAbsX (addr : Addr) (s : State) : Result := withByte .ldy (.absoluteX addr) semLdy s

/-- STA (R203): no flag. -/
def semSta (ea : Addr) (s : State) : State := s.writeByte ea s.a

/-- STA ZeroPage, 0x85. -/
def execStaZp (zp : Byte) (s : State) : Result := withAddress .sta (.zeroPage zp) semSta s

/-- STA ZeroPageX, 0x95. -/
def execStaZpX (zp : Byte) (s : State) : Result := withAddress .sta (.zeroPageX zp) semSta s

/-- STA Absolute, 0x8D. -/
def execStaAbs (addr : Addr) (s : State) : Result := withAddress .sta (.absolute addr) semSta s

/-- STA AbsoluteX, 0x9D. -/
def execStaAbsX (addr : Addr) (s : State) : Result := withAddress .sta (.absoluteX addr) semSta s

/-- STA AbsoluteY, 0x99. -/
def execStaAbsY (addr : Addr) (s : State) : Result := withAddress .sta (.absoluteY addr) semSta s

/-- STA IndirectX, 0x81. -/
def execStaIndX (zp : Byte) (s : State) : Result := withAddress .sta (.indirectX zp) semSta s

/-- STA IndirectY, 0x91. -/
def execStaIndY (zp : Byte) (s : State) : Result := withAddress .sta (.indirectY zp) semSta s

/-- STX (R204): no flag. -/
def semStx (ea : Addr) (s : State) : State := s.writeByte ea s.x

/-- STX ZeroPage, 0x86. -/
def execStxZp (zp : Byte) (s : State) : Result := withAddress .stx (.zeroPage zp) semStx s

/-- STX ZeroPageY, 0x96. -/
def execStxZpY (zp : Byte) (s : State) : Result := withAddress .stx (.zeroPageY zp) semStx s

/-- STX Absolute, 0x8E. -/
def execStxAbs (addr : Addr) (s : State) : Result := withAddress .stx (.absolute addr) semStx s

/-- STY (R205): no flag. -/
def semSty (ea : Addr) (s : State) : State := s.writeByte ea s.y

/-- STY ZeroPage, 0x84. -/
def execStyZp (zp : Byte) (s : State) : Result := withAddress .sty (.zeroPage zp) semSty s

/-- STY ZeroPageX, 0x94. -/
def execStyZpX (zp : Byte) (s : State) : Result := withAddress .sty (.zeroPageX zp) semSty s

/-- STY Absolute, 0x8C. -/
def execStyAbs (addr : Addr) (s : State) : Result := withAddress .sty (.absolute addr) semSty s

/-- TAX (R206). -/
def semTax (s : State) : State := (s.withX s.a).setZN s.a

/-- TAX NoneAddressing, 0xAA. -/
def execTax (s : State) : Result := implied semTax s

/-- TAY (R207). -/
def semTay (s : State) : State := (s.withY s.a).setZN s.a

/-- TAY NoneAddressing, 0xA8. -/
def execTay (s : State) : Result := implied semTay s

/-- TXA (R208). -/
def semTxa (s : State) : State := (s.withA s.x).setZN s.x

/-- TXA NoneAddressing, 0x8A. -/
def execTxa (s : State) : Result := implied semTxa s

/-- TYA (R209). -/
def semTya (s : State) : State := (s.withA s.y).setZN s.y

/-- TYA NoneAddressing, 0x98. -/
def execTya (s : State) : Result := implied semTya s

/-- TSX (R210). -/
def semTsx (s : State) : State := (s.withX s.sp).setZN s.sp

/-- TSX NoneAddressing, 0xBA. -/
def execTsx (s : State) : Result := implied semTsx s

/-- TXS (R211): no flag. -/
def semTxs (s : State) : State := s.withSp s.x

/-- TXS NoneAddressing, 0x9A. -/
def execTxs (s : State) : Result := implied semTxs s

end Sys2Proof.Machine
end

