-- ==== Sys2Proof/Machine/Shift.lean ====
section
/-! DEFINITION. Shifts and rotates: ASL, LSR, ROL, ROR (spec/42_shift_rotate.md, R150 to R154). For each mnemonic its semantic
function (R122), and for each of its opcode-table rows the meaning of that row. -/

namespace Sys2Proof.Machine

/-- The common tail of the shifts and rotates (R150): write the result back to the same location, then C and Z, N. -/
def shiftLoc (l : Loc) (r : Byte) (carry : Bool) (s : State) : State :=
  ((s.setLoc l r).setFlag .c carry).setZN r

/-- ASL (R151): C is bit 7 of the input. -/
def semAsl (l : Loc) (s : State) : State :=
  shiftLoc l (s.getLoc l <<< 1) ((s.getLoc l).getLsbD 7) s

/-- ASL ZeroPage, 0x06. -/
def execAslZp (zp : Byte) (s : State) : Result := withLoc (.zeroPage zp) semAsl s

/-- ASL ZeroPageX, 0x16. -/
def execAslZpX (zp : Byte) (s : State) : Result := withLoc (.zeroPageX zp) semAsl s

/-- ASL Absolute, 0x0E. -/
def execAslAbs (addr : Addr) (s : State) : Result := withLoc (.absolute addr) semAsl s

/-- ASL AbsoluteX, 0x1E. -/
def execAslAbsX (addr : Addr) (s : State) : Result := withLoc (.absoluteX addr) semAsl s

/-- ASL NoneAddressing, 0x0A. -/
def execAslAcc (s : State) : Result := withLoc .none semAsl s

/-- LSR (R152): C is bit 0 of the input. -/
def semLsr (l : Loc) (s : State) : State :=
  shiftLoc l (s.getLoc l >>> 1) ((s.getLoc l).getLsbD 0) s

/-- LSR ZeroPage, 0x46. -/
def execLsrZp (zp : Byte) (s : State) : Result := withLoc (.zeroPage zp) semLsr s

/-- LSR ZeroPageX, 0x56. -/
def execLsrZpX (zp : Byte) (s : State) : Result := withLoc (.zeroPageX zp) semLsr s

/-- LSR Absolute, 0x4E. -/
def execLsrAbs (addr : Addr) (s : State) : Result := withLoc (.absolute addr) semLsr s

/-- LSR AbsoluteX, 0x5E. -/
def execLsrAbsX (addr : Addr) (s : State) : Result := withLoc (.absoluteX addr) semLsr s

/-- LSR NoneAddressing, 0x4A. -/
def execLsrAcc (s : State) : Result := withLoc .none semLsr s

/-- ROL (R153): the old C enters at bit 0. -/
def semRol (l : Loc) (s : State) : State :=
  shiftLoc l (s.getLoc l <<< 1 ||| flagBit 8 (s.flag .c)) ((s.getLoc l).getLsbD 7) s

/-- ROL ZeroPage, 0x26. -/
def execRolZp (zp : Byte) (s : State) : Result := withLoc (.zeroPage zp) semRol s

/-- ROL ZeroPageX, 0x36. -/
def execRolZpX (zp : Byte) (s : State) : Result := withLoc (.zeroPageX zp) semRol s

/-- ROL Absolute, 0x2E. -/
def execRolAbs (addr : Addr) (s : State) : Result := withLoc (.absolute addr) semRol s

/-- ROL AbsoluteX, 0x3E. -/
def execRolAbsX (addr : Addr) (s : State) : Result := withLoc (.absoluteX addr) semRol s

/-- ROL NoneAddressing, 0x2A. -/
def execRolAcc (s : State) : Result := withLoc .none semRol s

/-- ROR (R154): the old C enters at bit 7. -/
def semRor (l : Loc) (s : State) : State :=
  shiftLoc l (s.getLoc l >>> 1 ||| flagBit 8 (s.flag .c) <<< 7) ((s.getLoc l).getLsbD 0) s

/-- ROR ZeroPage, 0x66. -/
def execRorZp (zp : Byte) (s : State) : Result := withLoc (.zeroPage zp) semRor s

/-- ROR ZeroPageX, 0x76. -/
def execRorZpX (zp : Byte) (s : State) : Result := withLoc (.zeroPageX zp) semRor s

/-- ROR Absolute, 0x6E. -/
def execRorAbs (addr : Addr) (s : State) : Result := withLoc (.absolute addr) semRor s

/-- ROR AbsoluteX, 0x7E. -/
def execRorAbsX (addr : Addr) (s : State) : Result := withLoc (.absoluteX addr) semRor s

/-- ROR NoneAddressing, 0x6A. -/
def execRorAcc (s : State) : Result := withLoc .none semRor s

end Sys2Proof.Machine
end

