-- ==== Sys2Proof/Machine/Stack.lean ====
section
/-! DEFINITION. Stack pushes and pulls: PHA, PHP, PLA, PLP (spec/47_stack.md, R220 to R223). For each mnemonic its semantic
function (R122), and for each of its opcode-table rows the meaning of that row. -/

namespace Sys2Proof.Machine

/-- PHA (R220). -/
def semPha (s : State) : State := s.push8 s.a

/-- PHA NoneAddressing, 0x48. -/
def execPha (s : State) : Result := implied semPha s

/-- PHP (R221): P is pushed as it is. -/
def semPhp (s : State) : State := s.push8 s.p

/-- PHP NoneAddressing, 0x08. -/
def execPhp (s : State) : Result := implied semPhp s

/-- PLA (R222). -/
def semPla (s : State) : State := (s.pop8.2.withA s.pop8.1).setZN s.pop8.1

/-- PLA NoneAddressing, 0x68. -/
def execPla (s : State) : Result := implied semPla s

/-- PLP (R223): all eight bits are replaced. -/
def semPlp (s : State) : State := s.pop8.2.withP s.pop8.1

/-- PLP NoneAddressing, 0x28. -/
def execPlp (s : State) : Result := implied semPlp s

end Sys2Proof.Machine
end

