-- ==== Sys2Proof/Machine/Dispatch.lean ====
section
/-! DEFINITION. Dispatch: one arm per constructor of `Instr`, each one call of its meaning (spec/40_execution_core.md
R122). The state is the one at the start of the step, pc at the opcode byte. -/

namespace Sys2Proof.Machine

/-- Execute one decoded instruction at pc. -/
def exec (i : Instr) (s : State) : Host.Outcome State Fault Refusal :=
  match i with
  -- Arithmetic and logic (41_arithmetic_logic.md)
  | .adcImm v => Sys2Proof.Machine.execAdcImm v s
  | .adcZp zp => Sys2Proof.Machine.execAdcZp zp s
  | .adcZpX zp => Sys2Proof.Machine.execAdcZpX zp s
  | .adcAbs addr => Sys2Proof.Machine.execAdcAbs addr s
  | .adcAbsX addr => Sys2Proof.Machine.execAdcAbsX addr s
  | .adcAbsY addr => Sys2Proof.Machine.execAdcAbsY addr s
  | .adcIndX zp => Sys2Proof.Machine.execAdcIndX zp s
  | .adcIndY zp => Sys2Proof.Machine.execAdcIndY zp s
  | .sbcImm v => Sys2Proof.Machine.execSbcImm v s
  | .sbcZp zp => Sys2Proof.Machine.execSbcZp zp s
  | .sbcZpX zp => Sys2Proof.Machine.execSbcZpX zp s
  | .sbcAbs addr => Sys2Proof.Machine.execSbcAbs addr s
  | .sbcAbsX addr => Sys2Proof.Machine.execSbcAbsX addr s
  | .sbcAbsY addr => Sys2Proof.Machine.execSbcAbsY addr s
  | .sbcIndX zp => Sys2Proof.Machine.execSbcIndX zp s
  | .sbcIndY zp => Sys2Proof.Machine.execSbcIndY zp s
  | .andImm v => Sys2Proof.Machine.execAndImm v s
  | .andZp zp => Sys2Proof.Machine.execAndZp zp s
  | .andZpX zp => Sys2Proof.Machine.execAndZpX zp s
  | .andAbs addr => Sys2Proof.Machine.execAndAbs addr s
  | .andAbsX addr => Sys2Proof.Machine.execAndAbsX addr s
  | .andAbsY addr => Sys2Proof.Machine.execAndAbsY addr s
  | .andIndX zp => Sys2Proof.Machine.execAndIndX zp s
  | .andIndY zp => Sys2Proof.Machine.execAndIndY zp s
  | .oraImm v => Sys2Proof.Machine.execOraImm v s
  | .oraZp zp => Sys2Proof.Machine.execOraZp zp s
  | .oraZpX zp => Sys2Proof.Machine.execOraZpX zp s
  | .oraAbs addr => Sys2Proof.Machine.execOraAbs addr s
  | .oraAbsX addr => Sys2Proof.Machine.execOraAbsX addr s
  | .oraAbsY addr => Sys2Proof.Machine.execOraAbsY addr s
  | .oraIndX zp => Sys2Proof.Machine.execOraIndX zp s
  | .oraIndY zp => Sys2Proof.Machine.execOraIndY zp s
  | .eorImm v => Sys2Proof.Machine.execEorImm v s
  | .eorZp zp => Sys2Proof.Machine.execEorZp zp s
  | .eorZpX zp => Sys2Proof.Machine.execEorZpX zp s
  | .eorAbs addr => Sys2Proof.Machine.execEorAbs addr s
  | .eorAbsX addr => Sys2Proof.Machine.execEorAbsX addr s
  | .eorAbsY addr => Sys2Proof.Machine.execEorAbsY addr s
  | .eorIndX zp => Sys2Proof.Machine.execEorIndX zp s
  | .eorIndY zp => Sys2Proof.Machine.execEorIndY zp s
  -- Shifts and rotates (42_shift_rotate.md)
  | .aslZp zp => Sys2Proof.Machine.execAslZp zp s
  | .aslZpX zp => Sys2Proof.Machine.execAslZpX zp s
  | .aslAbs addr => Sys2Proof.Machine.execAslAbs addr s
  | .aslAbsX addr => Sys2Proof.Machine.execAslAbsX addr s
  | .aslAcc => Sys2Proof.Machine.execAslAcc s
  | .lsrZp zp => Sys2Proof.Machine.execLsrZp zp s
  | .lsrZpX zp => Sys2Proof.Machine.execLsrZpX zp s
  | .lsrAbs addr => Sys2Proof.Machine.execLsrAbs addr s
  | .lsrAbsX addr => Sys2Proof.Machine.execLsrAbsX addr s
  | .lsrAcc => Sys2Proof.Machine.execLsrAcc s
  | .rolZp zp => Sys2Proof.Machine.execRolZp zp s
  | .rolZpX zp => Sys2Proof.Machine.execRolZpX zp s
  | .rolAbs addr => Sys2Proof.Machine.execRolAbs addr s
  | .rolAbsX addr => Sys2Proof.Machine.execRolAbsX addr s
  | .rolAcc => Sys2Proof.Machine.execRolAcc s
  | .rorZp zp => Sys2Proof.Machine.execRorZp zp s
  | .rorZpX zp => Sys2Proof.Machine.execRorZpX zp s
  | .rorAbs addr => Sys2Proof.Machine.execRorAbs addr s
  | .rorAbsX addr => Sys2Proof.Machine.execRorAbsX addr s
  | .rorAcc => Sys2Proof.Machine.execRorAcc s
  -- Compares, increments and decrements (43_compare_incdec.md)
  | .cmpImm v => Sys2Proof.Machine.execCmpImm v s
  | .cmpZp zp => Sys2Proof.Machine.execCmpZp zp s
  | .cmpZpX zp => Sys2Proof.Machine.execCmpZpX zp s
  | .cmpAbs addr => Sys2Proof.Machine.execCmpAbs addr s
  | .cmpAbsX addr => Sys2Proof.Machine.execCmpAbsX addr s
  | .cmpAbsY addr => Sys2Proof.Machine.execCmpAbsY addr s
  | .cmpIndX zp => Sys2Proof.Machine.execCmpIndX zp s
  | .cmpIndY zp => Sys2Proof.Machine.execCmpIndY zp s
  | .cpxImm v => Sys2Proof.Machine.execCpxImm v s
  | .cpxZp zp => Sys2Proof.Machine.execCpxZp zp s
  | .cpxAbs addr => Sys2Proof.Machine.execCpxAbs addr s
  | .cpyImm v => Sys2Proof.Machine.execCpyImm v s
  | .cpyZp zp => Sys2Proof.Machine.execCpyZp zp s
  | .cpyAbs addr => Sys2Proof.Machine.execCpyAbs addr s
  | .incZp zp => Sys2Proof.Machine.execIncZp zp s
  | .incZpX zp => Sys2Proof.Machine.execIncZpX zp s
  | .incAbs addr => Sys2Proof.Machine.execIncAbs addr s
  | .incAbsX addr => Sys2Proof.Machine.execIncAbsX addr s
  | .decZp zp => Sys2Proof.Machine.execDecZp zp s
  | .decZpX zp => Sys2Proof.Machine.execDecZpX zp s
  | .decAbs addr => Sys2Proof.Machine.execDecAbs addr s
  | .decAbsX addr => Sys2Proof.Machine.execDecAbsX addr s
  | .inx => Sys2Proof.Machine.execInx s
  | .iny => Sys2Proof.Machine.execIny s
  | .dex => Sys2Proof.Machine.execDex s
  | .dey => Sys2Proof.Machine.execDey s
  -- Conditional branches (44_branch.md)
  | .bcc d => Sys2Proof.Machine.execBcc d s
  | .bcs d => Sys2Proof.Machine.execBcs d s
  | .beq d => Sys2Proof.Machine.execBeq d s
  | .bne d => Sys2Proof.Machine.execBne d s
  | .bmi d => Sys2Proof.Machine.execBmi d s
  | .bpl d => Sys2Proof.Machine.execBpl d s
  | .bvc d => Sys2Proof.Machine.execBvc d s
  | .bvs d => Sys2Proof.Machine.execBvs d s
  -- Flag set and clear (45_flag.md)
  | .clc => Sys2Proof.Machine.execClc s
  | .cld => Sys2Proof.Machine.execCld s
  | .cli => Sys2Proof.Machine.execCli s
  | .clv => Sys2Proof.Machine.execClv s
  | .sec => Sys2Proof.Machine.execSec s
  | .sed => Sys2Proof.Machine.execSed s
  | .sei => Sys2Proof.Machine.execSei s
  -- Loads, stores and transfers (46_load_store_transfer.md)
  | .ldaImm v => Sys2Proof.Machine.execLdaImm v s
  | .ldaZp zp => Sys2Proof.Machine.execLdaZp zp s
  | .ldaZpX zp => Sys2Proof.Machine.execLdaZpX zp s
  | .ldaAbs addr => Sys2Proof.Machine.execLdaAbs addr s
  | .ldaAbsX addr => Sys2Proof.Machine.execLdaAbsX addr s
  | .ldaAbsY addr => Sys2Proof.Machine.execLdaAbsY addr s
  | .ldaIndX zp => Sys2Proof.Machine.execLdaIndX zp s
  | .ldaIndY zp => Sys2Proof.Machine.execLdaIndY zp s
  | .ldxImm v => Sys2Proof.Machine.execLdxImm v s
  | .ldxZp zp => Sys2Proof.Machine.execLdxZp zp s
  | .ldxZpY zp => Sys2Proof.Machine.execLdxZpY zp s
  | .ldxAbs addr => Sys2Proof.Machine.execLdxAbs addr s
  | .ldxAbsY addr => Sys2Proof.Machine.execLdxAbsY addr s
  | .ldyImm v => Sys2Proof.Machine.execLdyImm v s
  | .ldyZp zp => Sys2Proof.Machine.execLdyZp zp s
  | .ldyZpX zp => Sys2Proof.Machine.execLdyZpX zp s
  | .ldyAbs addr => Sys2Proof.Machine.execLdyAbs addr s
  | .ldyAbsX addr => Sys2Proof.Machine.execLdyAbsX addr s
  | .staZp zp => Sys2Proof.Machine.execStaZp zp s
  | .staZpX zp => Sys2Proof.Machine.execStaZpX zp s
  | .staAbs addr => Sys2Proof.Machine.execStaAbs addr s
  | .staAbsX addr => Sys2Proof.Machine.execStaAbsX addr s
  | .staAbsY addr => Sys2Proof.Machine.execStaAbsY addr s
  | .staIndX zp => Sys2Proof.Machine.execStaIndX zp s
  | .staIndY zp => Sys2Proof.Machine.execStaIndY zp s
  | .stxZp zp => Sys2Proof.Machine.execStxZp zp s
  | .stxZpY zp => Sys2Proof.Machine.execStxZpY zp s
  | .stxAbs addr => Sys2Proof.Machine.execStxAbs addr s
  | .styZp zp => Sys2Proof.Machine.execStyZp zp s
  | .styZpX zp => Sys2Proof.Machine.execStyZpX zp s
  | .styAbs addr => Sys2Proof.Machine.execStyAbs addr s
  | .tax => Sys2Proof.Machine.execTax s
  | .tay => Sys2Proof.Machine.execTay s
  | .txa => Sys2Proof.Machine.execTxa s
  | .tya => Sys2Proof.Machine.execTya s
  | .tsx => Sys2Proof.Machine.execTsx s
  | .txs => Sys2Proof.Machine.execTxs s
  -- Stack pushes and pulls (47_stack.md)
  | .pha => Sys2Proof.Machine.execPha s
  | .php => Sys2Proof.Machine.execPhp s
  | .pla => Sys2Proof.Machine.execPla s
  | .plp => Sys2Proof.Machine.execPlp s
  -- Jumps and subroutines (48_jump_subroutine.md)
  | .jsr addr => Sys2Proof.Machine.execJsr addr s
  | .rts => Sys2Proof.Machine.execRts s
  | .jmpAbs addr => Sys2Proof.Machine.execJmpAbs addr s
  | .jmpInd ptr => Sys2Proof.Machine.execJmpInd ptr s
  -- Break, return from interrupt, bit test, no-op (49_interrupt_misc.md)
  | .brk => Sys2Proof.Machine.execBrk s
  | .rti => Sys2Proof.Machine.execRti s
  | .bitZp zp => Sys2Proof.Machine.execBitZp zp s
  | .bitAbs addr => Sys2Proof.Machine.execBitAbs addr s
  | .nop => Sys2Proof.Machine.execNop s

end Sys2Proof.Machine
end

