-- ==== Sys2Proof/Machine/Fetch.lean ====
section
/-! DEFINITION. Fetching an instruction's bytes, and placing one where the next step fetches
(spec/40_execution_core.md R121; spec/20_memory.md R73; spec/30_encoding.md R80, R96). -/

namespace Sys2Proof.Machine

/-- Fetch and decode the instruction at pc: the opcode byte and the bytes after it, in increasing address order modulo
0x10000. A byte past the instruction's length is read and dropped: reads have no effect (20_memory.md R51, R59). -/
def State.fetch (s : State) : Except DecodeError Instr :=
  decode (s.readByte s.pc) (s.readByte (s.pc + 1)) (s.readByte (s.pc + 2))

/-- Store an instruction of `nbits` bits (bits numbered as the opcode table numbers them, the rest 0 up to the longest
instruction) at pc, and set the run state Running, as a new call of `run` does (R128; log 8). -/
def State.placeInstr (s : State) (nbits w : Nat) : State :=
  (((s.writeByte s.pc (tableByte nbits w 0)).writeByte (s.pc + 1) (tableByte nbits w 1)).writeByte (s.pc + 2)
    (tableByte nbits w 2)).withRun .running

end Sys2Proof.Machine
end

