-- ==== Sys2Proof/Machine/Step.lean ====
section
/-! DEFINITION. One step of the core (spec/40_execution_core.md R120, R121). -/

namespace Sys2Proof.Machine

/-- One whole instruction. A step happens only when the run state is Running (10_state.md R40, R120). An undefined code
ends the run: the next state holds `Faulted` with the record (R250, R253). When the run has ended the step answers how:
the recorded fault, or a refusal after a normal end (log 3). -/
def step (s : State) : Host.Outcome State Fault Refusal :=
  match s.run with
  | .running =>
    match s.fetch with
    | .ok i => exec i s
    | .error (.undefinedCode op) => .next (s.unrecognized op)
  | .halted => .refused .halted
  | .faulted f => .fault f

/-- The state with an instruction's bits stored where `step` fetches its next instruction, so that `step` runs it. -/
def State.withFetchWord (s : State) (nbits w : Nat) : State := s.placeInstr nbits w

end Sys2Proof.Machine
end

