-- ==== Sys2Proof/Config.lean ====
section
/-! DEFINITION. What the spec leaves open as a parameter of the core: the load origins (spec/00_scope.md R10, 92_eei_decisions.md D5). -/

namespace Sys2Proof

/-- The load modes of `load`: exactly two members (R10, D5). The spec does not name them: the names `first` and
`second` are a DESIGN CHOICE (log 4), safe: no rule tells the two apart. -/
inductive LoadMode where
  | first
  | second
  deriving DecidableEq, Repr

/-- `LOAD_ORIGIN(first)`, OPEN in the spec (R10): a free constant, no value of it can be proved (log 4, safe). -/
opaque Config.firstOrigin : Addr

/-- How far the second origin lies past the first, less one: free below 65535, so that the two origins differ and
every pair of different origins is some choice of the two constants (D5: `LOAD_ORIGIN` injective; log 4, safe). -/
opaque Config.originGap : Fin 65535

/-- `LOAD_ORIGIN : LoadMode -> 16-bit address` (R10, D5). -/
def Config.loadOrigin : LoadMode → Addr
  | .first => Config.firstOrigin
  | .second => Config.firstOrigin + 1 + BitVec.ofNat 16 Config.originGap.val

end Sys2Proof
end

