-- ==== Sys2Proof/Machine/HostOps.lean ====
section
/-! DEFINITION. The host operations new, load, reset, run and load_and_run (spec/70_reset_and_hazards.md R280 to R288;
spec/40_execution_core.md R126 to R128). -/

namespace Sys2Proof.Machine

/-- `new()`: every register and every memory byte zero, Running (R280; 10_state.md R42). -/
def newCore : State where
  a := 0x00
  x := 0x00
  y := 0x00
  sp := 0x00
  p := 0x00
  pc := 0x0000
  mem := []
  run := .running

/-- `reset()`: the registers to their defaults, pc from the reset vector, memory preserved (R283). -/
def State.hostReset (s : State) : State where
  a := 0x00
  x := 0x00
  y := 0x00
  sp := 0x00
  p := 0x34
  pc := s.readWord resetVector
  mem := s.mem
  run := .running

/-- Copy bytes into memory in order from an address on, modulo 0x10000 (R281, R282). -/
def State.copyBytes (s : State) (addr : Addr) : List Byte → State
  | [] => s
  | b :: rest => (s.writeByte addr b).copyBytes (addr + 1) rest

/-- `load` with the mode's origin as an argument (00_scope.md R10): copy the program, then write the reset vector
(R281). -/
def State.loadAt (s : State) (origin : Addr) (bytes : List Byte) : State :=
  (s.copyBytes origin bytes).writeWord resetVector origin

/-- `load(bytes, mode)` (R281). -/
def State.load (s : State) (bytes : List Byte) (mode : LoadMode) : State := s.loadAt (Config.loadOrigin mode) bytes

/-- Up to `fuel` steps, while the run state is Running (R126). The fuel is the host's bound (00_scope.md R10 `FUEL`):
a run it cuts is left Running, neither Halted nor Faulted (R286; log 5). -/
def State.runSteps : Nat → State → State
  | 0, s => s
  | fuel + 1, s =>
    match s.run with
    | .running =>
      match step s with
      | .next t => State.runSteps fuel t
      | _ => s
    | _ => s

/-- `run()` under a host's bound: a new call sets Running and steps from the current pc (R128). -/
def State.hostRun (fuel : Nat) (s : State) : State := State.runSteps fuel (s.withRun .running)

/-- `load_and_run(bytes, mode)`: load, reset, run (R285). -/
def State.loadAndRun (fuel : Nat) (s : State) (bytes : List Byte) (mode : LoadMode) : State :=
  State.hostRun fuel (s.load bytes mode).hostReset

end Sys2Proof.Machine
end

