-- ==== Sys2Proof/Safety.lean ====
section
/-! DEFINITION. What counts as a good state and a good end of a run, in the terms claims use
(spec/40_execution_core.md R127; spec/60_exceptions.md R253). -/

namespace Sys2Proof.Machine

/-- The invariant every step keeps: memory is in canonical form. The widths of the other fields make the rest of
10_state.md R26 true by typing. -/
def State.Inv (s : State) : Prop := Memory.wf s.mem = true

/-- A normal end: the last step executed a BRK (R127 outcome 1). -/
def State.NormalEnd (s : State) : Prop := s.run = .halted

/-- A fault has ended the run: never a normal end (R127 outcome 2, R253). -/
def State.FaultEnd (s : State) : Prop := ∃ f, s.run = .faulted f

/-- No fault within `fuel` steps. -/
def State.SafeFor (fuel : Nat) (s : State) : Prop := ¬ (State.runSteps fuel s).FaultEnd

end Sys2Proof.Machine
end

