-- ==== Sys2Proof/Certificates/Slice0/Obligations.lean ====
section
/-! DEFINITION. The statements about the core, one `def Obligations.<Name> : Prop` each, with the words they use.
"The spec's decision D<n>" in a docstring names a choice the spec itself made (spec/92_eei_decisions.md): a statement
that rests on one is of basis 'derived'. Rules are of spec/. -/

namespace Sys2Proof.Claims

open Sys2Proof.Machine

/-! ### Words the statements use -/

/-- The byte registers. -/
inductive Reg where
  | a | x | y | sp
  deriving DecidableEq, Repr

/-- A register's value. -/
def reg (s : State) : Reg → Byte
  | .a => s.a
  | .x => s.x
  | .y => s.y
  | .sp => s.sp

/-- The frame: every register but those named, every flag but those named, every memory byte outside the addresses
named, and the run state are as before. The program counter is stated apart. -/
structure KeptBut (regs : List Reg) (flags : List Flag) (addrs : List Addr) (s t : State) : Prop where
  regs : ∀ r, r ∉ regs → reg t r = reg s r
  flags : ∀ f, f ∉ flags → t.flag f = s.flag f
  memory : ∀ k, k ∉ addrs → t.readByte k = s.readByte k
  run : t.run = s.run

/-- The address after the instruction `i` at pc (R124). -/
def nextPc (i : Instr) (s : State) : Addr := s.pc + BitVec.ofNat 16 i.length

/-- Executing `i` at pc answers a next state with pc past the instruction, and that state is as `P` says. -/
def Completes (i : Instr) (s : State) (P : State → Prop) : Prop :=
  ∃ t, exec i s = .next t ∧ t.pc = nextPc i s ∧ P t

/-- Z and N are those of the result `r` (R33 to R35). -/
def ZNFrom (t : State) (r : Byte) : Prop := (t.flag .z = true ↔ r = 0x00) ∧ t.flag .n = r.getLsbD 7

/-- What R140's `AddWithCarry(m)` leaves, said in exact arithmetic: `sum` is A + m + C, never wrapped. -/
def AddsWithCarry (i : Instr) (s : State) (m : Byte) : Prop :=
  let carry : Nat := if s.flag .c then 1 else 0
  let sum : Nat := s.a.toNat + m.toNat + carry
  let r : Byte := BitVec.ofNat 8 sum
  Completes i s fun t =>
    t.a = r ∧ (t.flag .c = true ↔ 255 < sum) ∧
      (t.flag .v = true ↔ (m ^^^ r) &&& (r ^^^ s.a) &&& 0x80 ≠ 0) ∧
      (t.flag .v = true ↔ s.a.getLsbD 7 = m.getLsbD 7 ∧ r.getLsbD 7 ≠ s.a.getLsbD 7) ∧
      (t.flag .v = true ↔ s.a.toInt + m.toInt + carry < -128 ∨ 127 < s.a.toInt + m.toInt + carry) ∧
      ZNFrom t r ∧ KeptBut [.a] [.c, .z, .v, .n] [] s t

/-- A is `r`, Z and N are of `r`, nothing else changes. -/
def SetsA (i : Instr) (s : State) (r : Byte) : Prop :=
  Completes i s fun t => t.a = r ∧ ZNFrom t r ∧ KeptBut [.a] [.z, .n] [] s t

/-- X is `r`, Z and N are of `r`, nothing else changes. -/
def SetsX (i : Instr) (s : State) (r : Byte) : Prop :=
  Completes i s fun t => t.x = r ∧ ZNFrom t r ∧ KeptBut [.x] [.z, .n] [] s t

/-- Y is `r`, Z and N are of `r`, nothing else changes. -/
def SetsY (i : Instr) (s : State) (r : Byte) : Prop :=
  Completes i s fun t => t.y = r ∧ ZNFrom t r ∧ KeptBut [.y] [.z, .n] [] s t

/-- A shift or rotate with result `r` and carry out `carry`, each a function of the input (R150): with no address the
input is A and the result goes to A; with an address `ea` the input is the byte there and the result goes there. -/
def Shifts (i : Instr) (s : State) (r : Byte → Byte) (carry : Byte → Bool) : Prop :=
  (i.ea s = none → Completes i s fun t =>
    t.a = r s.a ∧ t.flag .c = carry s.a ∧ ZNFrom t (r s.a) ∧ KeptBut [.a] [.c, .z, .n] [] s t) ∧
  (∀ ea, i.ea s = some ea → Completes i s fun t =>
    t.readByte ea = r (s.readByte ea) ∧ t.flag .c = carry (s.readByte ea) ∧ ZNFrom t (r (s.readByte ea)) ∧
      KeptBut [] [.c, .z, .n] [ea] s t)

/-- R160's `Compare(reg, m)`. -/
def Compares (i : Instr) (s : State) (register m : Byte) : Prop :=
  Completes i s fun t =>
    (t.flag .c = true ↔ m.toNat ≤ register.toNat) ∧ (t.flag .z = true ↔ register = m) ∧
      ZNFrom t (register - m) ∧ KeptBut [] [.c, .z, .n] [] s t

/-- One flag becomes `on`, nothing else changes. -/
def WritesFlag (i : Instr) (s : State) (f : Flag) (on : Bool) : Prop :=
  Completes i s fun t => t.flag f = on ∧ KeptBut [] [f] [] s t

/-- The byte `v` is stored at the resolved address, nothing else changes. -/
def Stores (i : Instr) (s : State) (v : Byte) : Prop :=
  ∀ ea, i.ea s = some ea → Completes i s fun t => t.readByte ea = v ∧ KeptBut [] [] [ea] s t

/-- The byte `v` is pushed: stored at 0x0100 + SP, SP one higher, nothing else changes. -/
def Pushes (i : Instr) (s : State) (v : Byte) : Prop :=
  Completes i s fun t => t.readByte (stackAddr s.sp) = v ∧ t.sp = s.sp + 1 ∧ KeptBut [.sp] [] [stackAddr s.sp] s t

/-- A branch with displacement `d` whose condition is `taken` (R175). -/
def BranchesTo (i : Instr) (s : State) (d : Byte) (taken : Bool) : Prop :=
  ∃ t, exec i s = .next t ∧
    t.pc = (if taken then s.pc + 2 + d.signExtend 16 else s.pc + 2) ∧ KeptBut [] [] [] s t

/-! ### Tables of the spec -/

/-- The flags a mnemonic writes: the 'written by' column of R38. -/
def flagsWritten : Mnemonic → List Flag
  | .adc | .sbc => [.c, .z, .v, .n]
  | .asl | .lsr | .rol | .ror | .cmp | .cpx | .cpy => [.c, .z, .n]
  | .and | .ora | .eor | .inc | .dec | .inx | .iny | .dex | .dey | .lda | .ldx | .ldy | .tax | .tay | .txa | .tya
  | .tsx | .pla => [.z, .n]
  | .bit => [.z, .v, .n]
  | .clc | .sec => [.c]
  | .cli | .sei => [.i]
  | .cld | .sed => [.d]
  | .clv => [.v]
  | .brk => [.b, .b2]
  | .plp | .rti => [.c, .z, .i, .d, .b, .b2, .v, .n]
  | .sta | .stx | .sty | .txs | .pha | .php | .jmp | .jsr | .rts | .nop
  | .bcc | .bcs | .beq | .bne | .bmi | .bpl | .bvc | .bvs => []

/-- The flags a mnemonic reads: the 'read by' column of R38. -/
def flagsRead : Mnemonic → List Flag
  | .adc | .sbc | .rol | .ror | .bcc | .bcs => [.c]
  | .beq | .bne => [.z]
  | .bvc | .bvs => [.v]
  | .bmi | .bpl => [.n]
  | .php | .brk => [.c, .z, .i, .d, .b, .b2, .v, .n]
  | .and | .ora | .eor | .asl | .lsr | .cmp | .cpx | .cpy | .inc | .dec | .inx | .iny | .dex | .dey
  | .clc | .cld | .cli | .clv | .sec | .sed | .sei | .lda | .ldx | .ldy | .sta | .stx | .sty
  | .tax | .tay | .txa | .tya | .tsx | .txs | .pha | .pla | .plp | .jsr | .rts | .jmp | .rti | .bit | .nop => []

/-- A shift or rotate in its accumulator form. -/
def accumulatorShift (i : Instr) : Bool :=
  i.operand == .none && [Mnemonic.asl, .lsr, .rol, .ror].contains i.mnemonic

/-- R21: written by. -/
def writesA (i : Instr) : Bool :=
  accumulatorShift i || [Mnemonic.lda, .adc, .sbc, .and, .ora, .eor, .txa, .tya, .pla].contains i.mnemonic

/-- R21: read by. -/
def readsA (i : Instr) : Bool :=
  accumulatorShift i ||
    [Mnemonic.adc, .sbc, .and, .ora, .eor, .cmp, .bit, .sta, .tax, .tay, .pha].contains i.mnemonic

/-- R22: written by. -/
def writesX (i : Instr) : Bool := [Mnemonic.ldx, .tax, .tsx, .inx, .dex].contains i.mnemonic

/-- R22: read by, the addressing modes included. -/
def readsX (i : Instr) : Bool :=
  [Mnemonic.stx, .txa, .txs, .cpx, .inx, .dex].contains i.mnemonic ||
    [Mode.zeroPageX, .absoluteX, .indirectX].contains i.operand.mode

/-- R23: written by. -/
def writesY (i : Instr) : Bool := [Mnemonic.ldy, .tay, .iny, .dey].contains i.mnemonic

/-- R23: read by, the addressing modes included. -/
def readsY (i : Instr) : Bool :=
  [Mnemonic.sty, .tya, .cpy, .iny, .dey].contains i.mnemonic ||
    [Mode.zeroPageY, .absoluteY, .indirectY].contains i.operand.mode

/-- The mnemonics that use the stack primitives (R25). -/
def usesStack (i : Instr) : Bool :=
  [Mnemonic.pha, .php, .pla, .plp, .jsr, .rts, .brk, .rti].contains i.mnemonic

/-- The mnemonics that write pc themselves (R124). -/
def writesPc (i : Instr) : Bool :=
  [Mnemonic.bcc, .bcs, .beq, .bne, .bmi, .bpl, .bvc, .bvs, .jmp, .jsr, .rts, .brk, .rti].contains i.mnemonic

/-- The addresses an instruction stores to: the resolved address of the stores and of the memory forms that write back,
the stack slots of the pushes. -/
def storedAt (i : Instr) (s : State) : List Addr :=
  match i.mnemonic with
  | .sta | .stx | .sty | .inc | .dec | .asl | .lsr | .rol | .ror => (i.ea s).toList
  | .pha | .php => [stackAddr s.sp]
  | .jsr => [stackAddr s.sp, stackAddr s.sp + 1]
  | .brk => [stackAddr s.sp, stackAddr s.sp + 1, stackAddr (s.sp + 2)]
  | .adc | .sbc | .and | .ora | .eor | .cmp | .cpx | .cpy | .inx | .iny | .dex | .dey
  | .bcc | .bcs | .beq | .bne | .bmi | .bpl | .bvc | .bvs | .clc | .cld | .cli | .clv | .sec | .sed | .sei
  | .lda | .ldx | .ldy | .tax | .tay | .txa | .tya | .tsx | .txs | .pla | .plp | .rts | .jmp | .rti | .bit
  | .nop => []

/-- Rows of R100, codes 0x00 to 0x21: code, mnemonic, mode, length. -/
def specRows1 : List (Byte × Mnemonic × Mode × Nat) :=
  [ (0x00, .brk, .noneAddressing, 1), (0x01, .ora, .indirectX, 2), (0x05, .ora, .zeroPage, 2),
    (0x06, .asl, .zeroPage, 2), (0x08, .php, .noneAddressing, 1), (0x09, .ora, .immediate, 2),
    (0x0A, .asl, .noneAddressing, 1), (0x0D, .ora, .absolute, 3), (0x0E, .asl, .absolute, 3),
    (0x10, .bpl, .relative, 2), (0x11, .ora, .indirectY, 2), (0x15, .ora, .zeroPageX, 2),
    (0x16, .asl, .zeroPageX, 2), (0x18, .clc, .noneAddressing, 1), (0x19, .ora, .absoluteY, 3),
    (0x1D, .ora, .absoluteX, 3), (0x1E, .asl, .absoluteX, 3), (0x20, .jsr, .absolute, 3),
    (0x21, .and, .indirectX, 2) ]

/-- Rows of R100, codes 0x24 to 0x41: code, mnemonic, mode, length. -/
def specRows2 : List (Byte × Mnemonic × Mode × Nat) :=
  [ (0x24, .bit, .zeroPage, 2), (0x25, .and, .zeroPage, 2), (0x26, .rol, .zeroPage, 2),
    (0x28, .plp, .noneAddressing, 1), (0x29, .and, .immediate, 2), (0x2A, .rol, .noneAddressing, 1),
    (0x2C, .bit, .absolute, 3), (0x2D, .and, .absolute, 3), (0x2E, .rol, .absolute, 3),
    (0x30, .bmi, .relative, 2), (0x31, .and, .indirectY, 2), (0x35, .and, .zeroPageX, 2),
    (0x36, .rol, .zeroPageX, 2), (0x38, .sec, .noneAddressing, 1), (0x39, .and, .absoluteY, 3),
    (0x3D, .and, .absoluteX, 3), (0x3E, .rol, .absoluteX, 3), (0x40, .rti, .noneAddressing, 1),
    (0x41, .eor, .indirectX, 2) ]

/-- Rows of R100, codes 0x45 to 0x65: code, mnemonic, mode, length. -/
def specRows3 : List (Byte × Mnemonic × Mode × Nat) :=
  [ (0x45, .eor, .zeroPage, 2), (0x46, .lsr, .zeroPage, 2), (0x48, .pha, .noneAddressing, 1),
    (0x49, .eor, .immediate, 2), (0x4A, .lsr, .noneAddressing, 1), (0x4C, .jmp, .absolute, 3),
    (0x4D, .eor, .absolute, 3), (0x4E, .lsr, .absolute, 3), (0x50, .bvc, .relative, 2),
    (0x51, .eor, .indirectY, 2), (0x55, .eor, .zeroPageX, 2), (0x56, .lsr, .zeroPageX, 2),
    (0x58, .cli, .noneAddressing, 1), (0x59, .eor, .absoluteY, 3), (0x5D, .eor, .absoluteX, 3),
    (0x5E, .lsr, .absoluteX, 3), (0x60, .rts, .noneAddressing, 1), (0x61, .adc, .indirectX, 2),
    (0x65, .adc, .zeroPage, 2) ]

/-- Rows of R100, codes 0x66 to 0x86: code, mnemonic, mode, length. -/
def specRows4 : List (Byte × Mnemonic × Mode × Nat) :=
  [ (0x66, .ror, .zeroPage, 2), (0x68, .pla, .noneAddressing, 1), (0x69, .adc, .immediate, 2),
    (0x6A, .ror, .noneAddressing, 1), (0x6C, .jmp, .indirect, 3), (0x6D, .adc, .absolute, 3),
    (0x6E, .ror, .absolute, 3), (0x70, .bvs, .relative, 2), (0x71, .adc, .indirectY, 2),
    (0x75, .adc, .zeroPageX, 2), (0x76, .ror, .zeroPageX, 2), (0x78, .sei, .noneAddressing, 1),
    (0x79, .adc, .absoluteY, 3), (0x7D, .adc, .absoluteX, 3), (0x7E, .ror, .absoluteX, 3),
    (0x81, .sta, .indirectX, 2), (0x84, .sty, .zeroPage, 2), (0x85, .sta, .zeroPage, 2),
    (0x86, .stx, .zeroPage, 2) ]

/-- Rows of R100, codes 0x88 to 0xA5: code, mnemonic, mode, length. -/
def specRows5 : List (Byte × Mnemonic × Mode × Nat) :=
  [ (0x88, .dey, .noneAddressing, 1), (0x8A, .txa, .noneAddressing, 1), (0x8C, .sty, .absolute, 3),
    (0x8D, .sta, .absolute, 3), (0x8E, .stx, .absolute, 3), (0x90, .bcc, .relative, 2),
    (0x91, .sta, .indirectY, 2), (0x94, .sty, .zeroPageX, 2), (0x95, .sta, .zeroPageX, 2),
    (0x96, .stx, .zeroPageY, 2), (0x98, .tya, .noneAddressing, 1), (0x99, .sta, .absoluteY, 3),
    (0x9A, .txs, .noneAddressing, 1), (0x9D, .sta, .absoluteX, 3), (0xA0, .ldy, .immediate, 2),
    (0xA1, .lda, .indirectX, 2), (0xA2, .ldx, .immediate, 2), (0xA4, .ldy, .zeroPage, 2),
    (0xA5, .lda, .zeroPage, 2) ]

/-- Rows of R100, codes 0xA6 to 0xC0: code, mnemonic, mode, length. -/
def specRows6 : List (Byte × Mnemonic × Mode × Nat) :=
  [ (0xA6, .ldx, .zeroPage, 2), (0xA8, .tay, .noneAddressing, 1), (0xA9, .lda, .immediate, 2),
    (0xAA, .tax, .noneAddressing, 1), (0xAC, .ldy, .absolute, 3), (0xAD, .lda, .absolute, 3),
    (0xAE, .ldx, .absolute, 3), (0xB0, .bcs, .relative, 2), (0xB1, .lda, .indirectY, 2),
    (0xB4, .ldy, .zeroPageX, 2), (0xB5, .lda, .zeroPageX, 2), (0xB6, .ldx, .zeroPageY, 2),
    (0xB8, .clv, .noneAddressing, 1), (0xB9, .lda, .absoluteY, 3), (0xBA, .tsx, .noneAddressing, 1),
    (0xBC, .ldy, .absoluteX, 3), (0xBD, .lda, .absoluteX, 3), (0xBE, .ldx, .absoluteY, 3),
    (0xC0, .cpy, .immediate, 2) ]

/-- Rows of R100, codes 0xC1 to 0xE0: code, mnemonic, mode, length. -/
def specRows7 : List (Byte × Mnemonic × Mode × Nat) :=
  [ (0xC1, .cmp, .indirectX, 2), (0xC4, .cpy, .zeroPage, 2), (0xC5, .cmp, .zeroPage, 2),
    (0xC6, .dec, .zeroPage, 2), (0xC8, .iny, .noneAddressing, 1), (0xC9, .cmp, .immediate, 2),
    (0xCA, .dex, .noneAddressing, 1), (0xCC, .cpy, .absolute, 3), (0xCD, .cmp, .absolute, 3),
    (0xCE, .dec, .absolute, 3), (0xD0, .bne, .relative, 2), (0xD1, .cmp, .indirectY, 2),
    (0xD5, .cmp, .zeroPageX, 2), (0xD6, .dec, .zeroPageX, 2), (0xD8, .cld, .noneAddressing, 1),
    (0xD9, .cmp, .absoluteY, 3), (0xDD, .cmp, .absoluteX, 3), (0xDE, .dec, .absoluteX, 3),
    (0xE0, .cpx, .immediate, 2) ]

/-- Rows of R100, codes 0xE1 to 0xFE: code, mnemonic, mode, length. -/
def specRows8 : List (Byte × Mnemonic × Mode × Nat) :=
  [ (0xE1, .sbc, .indirectX, 2), (0xE4, .cpx, .zeroPage, 2), (0xE5, .sbc, .zeroPage, 2),
    (0xE6, .inc, .zeroPage, 2), (0xE8, .inx, .noneAddressing, 1), (0xE9, .sbc, .immediate, 2),
    (0xEA, .nop, .noneAddressing, 1), (0xEC, .cpx, .absolute, 3), (0xED, .sbc, .absolute, 3),
    (0xEE, .inc, .absolute, 3), (0xF0, .beq, .relative, 2), (0xF1, .sbc, .indirectY, 2),
    (0xF5, .sbc, .zeroPageX, 2), (0xF6, .inc, .zeroPageX, 2), (0xF8, .sed, .noneAddressing, 1),
    (0xF9, .sbc, .absoluteY, 3), (0xFD, .sbc, .absoluteX, 3), (0xFE, .inc, .absoluteX, 3) ]

/-- The opcode table of R100 as the spec prints it, less its advisory cycle column. -/
def specRows : List (Byte × Mnemonic × Mode × Nat) :=
  specRows1 ++ specRows2 ++ specRows3 ++ specRows4 ++ specRows5 ++ specRows6 ++ specRows7 ++ specRows8

/-- The undefined codes as R102 lists them, rows 0 to 7. -/
def undefinedLow : List Byte :=
  [ 0x02, 0x03, 0x04, 0x07, 0x0B, 0x0C, 0x0F, 0x12, 0x13, 0x14, 0x17, 0x1A, 0x1B, 0x1C,
    0x1F, 0x22, 0x23, 0x27, 0x2B, 0x2F, 0x32, 0x33, 0x34, 0x37, 0x3A, 0x3B, 0x3C, 0x3F,
    0x42, 0x43, 0x44, 0x47, 0x4B, 0x4F, 0x52, 0x53, 0x54, 0x57, 0x5A, 0x5B, 0x5C, 0x5F,
    0x62, 0x63, 0x64, 0x67, 0x6B, 0x6F, 0x72, 0x73, 0x74, 0x77, 0x7A, 0x7B, 0x7C, 0x7F ]

/-- The undefined codes as R102 lists them, rows 8 to F. -/
def undefinedHigh : List Byte :=
  [ 0x80, 0x82, 0x83, 0x87, 0x89, 0x8B, 0x8F, 0x92, 0x93, 0x97, 0x9B, 0x9C, 0x9E, 0x9F,
    0xA3, 0xA7, 0xAB, 0xAF, 0xB2, 0xB3, 0xB7, 0xBB, 0xBF, 0xC2, 0xC3, 0xC7, 0xCB, 0xCF,
    0xD2, 0xD3, 0xD4, 0xD7, 0xDA, 0xDB, 0xDC, 0xDF, 0xE2, 0xE3, 0xE7, 0xEB, 0xEF, 0xF2,
    0xF3, 0xF4, 0xF7, 0xFA, 0xFB, 0xFC, 0xFF ]

/-- The 105 undefined codes (R102). -/
def undefinedCodes : List Byte := undefinedLow ++ undefinedHigh

end Sys2Proof.Claims

open Sys2Proof Sys2Proof.Machine Sys2Proof.Claims

/-! ### Flags, memory and stack operations -/

/-- R32: `set(flag, b)` writes the one named flag and leaves the other seven bits, and the rest of the state. -/
def Obligations.FlagSetterWritesOneFlag : Prop :=
  ∀ (s : State) (f : Flag) (on : Bool),
    (s.setFlag f on).flag f = on ∧ (∀ g, g ≠ f → (s.setFlag f on).flag g = s.flag g) ∧
      s.setFlag f on = s.withP (s.setFlag f on).p

/-- R33, R34, R35, R37: the flag helpers set their flag by their rule and leave the other bits, the byte registers,
memory and the run state. `SetCarrySum` of R36 is stated beside them. -/
def Obligations.FlagHelpersSetTheirFlags : Prop :=
  ∀ (s : State) (v : Byte) (sum : BitVec 16) (on : Bool),
    (((s.setZ v).flag .z = true ↔ v = 0x00) ∧ KeptBut [] [.z] [] s (s.setZ v)) ∧
    ((s.setN v).flag .n = v.getLsbD 7 ∧ KeptBut [] [.n] [] s (s.setN v)) ∧
    (ZNFrom (s.setZN v) v ∧ KeptBut [] [.z, .n] [] s (s.setZN v)) ∧
    (((s.setCarrySum sum).flag .c = true ↔ 255 < sum.toNat) ∧ KeptBut [] [.c] [] s (s.setCarrySum sum)) ∧
    ((s.setOverflow on).flag .v = on ∧ KeptBut [] [.v] [] s (s.setOverflow on))

/-- R52, R53, R54: byte and little-endian word accesses at every address, 0xFFFF included: what a read gives, what a
write stores, and that a write changes no other byte and nothing but memory. -/
def Obligations.MemoryReadsBackWhatWasWritten : Prop :=
  ∀ (s : State) (addr v : Addr) (b : Byte),
    (s.readWord addr).toNat = (s.readByte addr).toNat + 256 * (s.readByte (addr + 1)).toNat ∧
    (s.writeByte addr b).readByte addr = b ∧
    (∀ k, k ≠ addr → (s.writeByte addr b).readByte k = s.readByte k) ∧
    s.writeByte addr b = s.withMem (s.writeByte addr b).mem ∧
    (s.writeWord addr v).readByte addr = v.extractLsb' 0 8 ∧
    (s.writeWord addr v).readByte (addr + 1) = v.extractLsb' 8 8 ∧
    (∀ k, k ≠ addr → k ≠ addr + 1 → (s.writeWord addr v).readByte k = s.readByte k) ∧
    s.writeWord addr v = s.withMem (s.writeWord addr v).mem ∧
    (s.writeWord addr v).readWord addr = v

/-- R60, R62: a byte is pushed at 0x0100 + SP and SP advances by 1; a pop retreats SP by 1, then reads; SP wraps modulo
256 and nothing else changes. -/
def Obligations.BytePushAndPopMoveUpward : Prop :=
  ∀ (s : State) (v : Byte),
    (stackAddr s.sp).toNat = 0x0100 + s.sp.toNat ∧
    (s.push8 v).sp.toNat = (s.sp.toNat + 1) % 256 ∧
    (s.push8 v).readByte (stackAddr s.sp) = v ∧
    KeptBut [.sp] [] [stackAddr s.sp] s (s.push8 v) ∧ (s.push8 v).pc = s.pc ∧
    s.pop8.2.sp.toNat = (s.sp.toNat + 255) % 256 ∧
    s.pop8.1 = s.readByte (stackAddr s.pop8.2.sp) ∧
    s.pop8.2 = s.withSp s.pop8.2.sp

/-- R61, R63 with the spec's decision D7: a word is pushed low byte first at 0x0100 + SP and the next address (0x0200
when SP = 0xFF), SP advances by 2; a pop retreats SP by 2, then reads the word the same way. -/
def Obligations.WordPushAndPopCrossThePage : Prop :=
  ∀ (s : State) (v : Addr),
    (s.push16 v).sp.toNat = (s.sp.toNat + 2) % 256 ∧
    (s.push16 v).readByte (stackAddr s.sp) = v.extractLsb' 0 8 ∧
    (s.push16 v).readByte (stackAddr s.sp + 1) = v.extractLsb' 8 8 ∧
    (s.sp = 0xFF → stackAddr s.sp + 1 = 0x0200) ∧
    KeptBut [.sp] [] [stackAddr s.sp, stackAddr s.sp + 1] s (s.push16 v) ∧ (s.push16 v).pc = s.pc ∧
    s.pop16.2.sp.toNat = (s.sp.toNat + 254) % 256 ∧
    s.pop16.1 = s.readByte (stackAddr s.pop16.2.sp + 1) ++ s.readByte (stackAddr s.pop16.2.sp) ∧
    s.pop16.2 = s.withSp s.pop16.2.sp

/-- R64, for every starting SP: popping what was pushed gives it back and restores SP. At SP = 0xFF it rests on the
spec's decision D7. -/
def Obligations.PopUndoesPush : Prop :=
  ∀ (s : State) (v : Byte) (w : Addr),
    (s.push8 v).pop8.1 = v ∧ (s.push8 v).pop8.2.sp = s.sp ∧
    (s.push16 w).pop16.1 = w ∧ (s.push16 w).pop16.2.sp = s.sp

/-! ### Addressing modes -/

/-- R84 to R91 and R95, on an instruction fetched from memory at pc: the address each of these modes yields from the
bytes after the opcode, the operand byte it reads (for Immediate log 9: the decoded byte is that memory byte), and how
far it moves pc. -/
def Obligations.DirectModesResolve : Prop :=
  ∀ (s : State) (i : Instr), s.fetch = .ok i →
    let q := s.pc + 1
    let b := s.readByte q
    let w := s.readByte (q + 1) ++ b
    let pcAfter := (resolve i.operand (s.advancePc 1)).2
    (resolve i.operand (s.advancePc 1)).1 = i.ea s ∧
    (i.operand.mode = .immediate →
      i.ea s = some q ∧ i.readOperand s = some (s.readByte q) ∧ pcAfter = s.withPc (q + 1)) ∧
    (i.operand.mode = .zeroPage → i.ea s = some (b.setWidth 16) ∧ pcAfter = s.withPc (q + 1)) ∧
    (i.operand.mode = .zeroPageX → i.ea s = some ((b + s.x).setWidth 16) ∧ pcAfter = s.withPc (q + 1)) ∧
    (i.operand.mode = .zeroPageY →
      i.ea s = some ((b + s.y).setWidth 16) ∧ pcAfter = s.withPc (q + 1) ∧
        (i.mnemonic = .ldx ∨ i.mnemonic = .stx)) ∧
    (i.operand.mode = .absolute → i.ea s = some w ∧ pcAfter = s.withPc (q + 2)) ∧
    (i.operand.mode = .absoluteX → i.ea s = some (w + s.x.setWidth 16) ∧ pcAfter = s.withPc (q + 2)) ∧
    (i.operand.mode = .absoluteY → i.ea s = some (w + s.y.setWidth 16) ∧ pcAfter = s.withPc (q + 2)) ∧
    (i.operand.mode = .relative →
      i.ea s = some (q + 1 + b.signExtend 16) ∧ pcAfter = s.withPc (q + 1) ∧
        i.mnemonic ∈ [Mnemonic.bcc, .bcs, .beq, .bne, .bmi, .bpl, .bvc, .bvs]) ∧
    (i.operand.mode = .noneAddressing → i.ea s = none ∧ pcAfter = s.withPc q) ∧
    (i.operand.mode ≠ .immediate → i.readOperand s = (i.ea s).map s.readByte)

/-- R92, R93, R94 with the spec's decisions D8 and D9, on an instruction fetched from memory at pc: the pointer modes
read both pointer bytes at consecutive 16-bit addresses, so a zero-page pointer 0xFF takes its high byte from 0x0100
and JMP Indirect crosses the page. -/
def Obligations.PointerModesResolve : Prop :=
  ∀ (s : State) (i : Instr), s.fetch = .ok i →
    let q := s.pc + 1
    let b := s.readByte q
    let ptr := s.readByte (q + 1) ++ b
    let zx : Addr := (b + s.x).setWidth 16
    let zy : Addr := b.setWidth 16
    let pcAfter := (resolve i.operand (s.advancePc 1)).2
    (i.operand.mode = .indirect →
      i.ea s = some (s.readByte (ptr + 1) ++ s.readByte ptr) ∧ pcAfter = s.withPc (q + 2) ∧ i.mnemonic = .jmp) ∧
    (i.operand.mode = .indirectX →
      i.ea s = some (s.readByte (zx + 1) ++ s.readByte zx) ∧ pcAfter = s.withPc (q + 1)) ∧
    (i.operand.mode = .indirectY →
      i.ea s = some (s.readByte (zy + 1) ++ s.readByte zy + s.y.setWidth 16) ∧ pcAfter = s.withPc (q + 1))

/-- R123 with the spec's decision D22: every instruction whose mnemonic needs an address resolves one and has an
operand byte to read, so `MissingOperand` is never raised; the others take no operand bytes or are the shifts. -/
def Obligations.EveryNeededAddressResolves : Prop :=
  ∀ (i : Instr) (s : State),
    (i.mnemonic.needs = .address → ∃ ea m, i.ea s = some ea ∧ i.readOperand s = some m) ∧
    (i.mnemonic.needs = .nothing → i.ea s = none)

/-! ### Decoding -/

/-- Decode and encode agree on every instruction, with every operand at every value, whatever bytes follow. -/
def Obligations.DecodeOfEncode : Prop :=
  ∀ (i : Instr) (rest : List Byte), decodeBytes (encode i ++ rest) = .ok i

/-- What the decoder accepts is exactly what the encoder writes: no bit of an instruction is dropped, and no two byte
strings of one length are read as one instruction. -/
def Obligations.EncodeOfDecode : Prop :=
  ∀ (op b1 b2 : Byte) (i : Instr), decode op b1 b2 = .ok i → encode i = [op, b1, b2].take i.length

/-- R102: the decoder refuses exactly the 105 listed codes, by name. The list rests on the spec's decision D18. -/
def Obligations.UndefinedCodesAreRefused : Prop :=
  ∀ op b1 b2 : Byte, decode op b1 b2 = .error (.undefinedCode op) ↔ op ∈ undefinedCodes

/-- R97, R100, R104: each row of the printed opcode table decodes to an instruction of its mnemonic, mode and length,
the table has 151 rows and no two share a code. The codes rest on the spec's decisions D18 and D19. -/
def Obligations.OpcodeTableRowsDecode : Prop :=
  specRows.length = 151 ∧ (specRows.map Prod.fst).Nodup ∧
  ∀ row ∈ specRows, ∀ b1 b2 : Byte, ∃ i,
    decode row.1 b1 b2 = .ok i ∧ i.mnemonic = row.2.1 ∧ i.operand.mode = row.2.2.1 ∧ i.length = row.2.2.2

/-- A few words of the spec's own examples decode to the instruction they stand for (D18 for the codes). -/
def Obligations.SpecWordsDecode : Prop :=
  decodeBytes [0xA9, 0x05] = .ok (.ldaImm 0x05) ∧ decodeBytes [0x6E, 0x00, 0x02] = .ok (.rorAbs 0x0200) ∧
  decodeBytes [0xD0, 0xFB] = .ok (.bne 0xFB) ∧ decodeBytes [0x91, 0xF0] = .ok (.staIndY 0xF0) ∧
  decodeBytes [0x6C, 0x00, 0x03] = .ok (.jmpInd 0x0300) ∧ decodeBytes [0x00] = .ok .brk ∧
  decodeBytes [0xAA] = .ok .tax ∧ decodeBytes [0xE8] = .ok .inx ∧ decodeBytes [0x02] = .error (.undefinedCode 0x02)

/-! ### The step -/

/-- R121: a step in Running reads the bytes at pc, pc + 1, pc + 2 (modulo 0x10000); when they decode to an instruction
the step is the execution of that instruction at that state, and nothing is added around it. -/
def Obligations.StepRunsTheDecodedInstruction : Prop :=
  ∀ (s : State) (i : Instr), s.run = .running →
    decode (s.readByte s.pc) (s.readByte (s.pc + 1)) (s.readByte (s.pc + 2)) = .ok i → step s = exec i s

/-- R250, R253 with the spec's decision D14: an undefined code at pc ends the run in Faulted with the code and its
address, pc past the code byte, and every register, flag and memory byte as before. That the faulted state is a next
state of the step is the model's choice (log 3). -/
def Obligations.UndefinedCodeFaultsTheRun : Prop :=
  ∀ s : State, s.run = .running → s.readByte s.pc ∈ undefinedCodes →
    ∃ t, step s = .next t ∧ t.run = .faulted (.unrecognizedOpcode (s.readByte s.pc) s.pc) ∧ t.pc = s.pc + 1 ∧
      t.a = s.a ∧ t.x = s.x ∧ t.y = s.y ∧ t.sp = s.sp ∧ t.p = s.p ∧ t.mem = s.mem

/-- R251, R253 with the spec's decisions D14 and D22: a semantic function that needs an address and is run with none
records MissingOperand with its mnemonic and the opcode's address, pc past the operand bytes (there are none), and
nothing else is written. -/
def Obligations.MissingOperandFaultsTheRun : Prop :=
  ∀ (m : Mnemonic) (s : State) (f : Addr → State → State) (g : Byte → State → State),
    withAddress m .none f s = .next { s with pc := s.pc + 1, run := .faulted (.missingOperand m s.pc) } ∧
    withByte m .none g s = .next { s with pc := s.pc + 1, run := .faulted (.missingOperand m s.pc) }

/-- R40, R120: there is no step unless the run state is Running. What the step answers instead is the model's choice
(log 3): the recorded fault when Faulted, a refusal when Halted. -/
def Obligations.NoStepUnlessRunning : Prop :=
  ∀ s : State, (s.run = .halted → step s = .refused .halted) ∧ (∀ f, s.run = .faulted f → step s = .fault f) ∧
    ((∃ t, step s = .next t) → s.run = .running)

/-- R252 with R125, R250, R123 and the spec's decisions D14 and D22: every step of a running core has a next state,
whatever the bytes at pc, the stack pointer, the operands and the addresses are. The run goes on, or it halted at a BRK,
or it faulted at an undefined code; there is no other end of a step and no other fault. That a step at an undefined code
has a next state, the faulted one, is the model's choice (log 3). -/
def Obligations.EveryRunningStepHasANextState : Prop :=
  ∀ s : State, s.run = .running → ∃ t, step s = .next t ∧
    (t.run = .running ∨ (t.run = .halted ∧ s.fetch = .ok .brk) ∨
      (t.run = .faulted (.unrecognizedOpcode (s.readByte s.pc) s.pc) ∧
        s.fetch = .error (.undefinedCode (s.readByte s.pc))))

/-- R125: BRK halts and no other instruction changes the run state. -/
def Obligations.OnlyBrkHalts : Prop :=
  ∀ (i : Instr) (s t : State), exec i s = .next t →
    (i = .brk → t.run = .halted) ∧ (i ≠ .brk → t.run = s.run)

/-- Every step keeps memory in its canonical form (log 2), from every state that has it. -/
def Obligations.StepKeepsMemoryCanonical : Prop := ∀ s t : State, s.Inv → step s = .next t → t.Inv

/-- The state after reset has its memory in canonical form. -/
def Obligations.ResetMemoryIsCanonical : Prop := State.reset.Inv

/-- R128 and the fixed place of fetching: an instruction the decoder reads from a table word, placed by
`withFetchWord`, is the one the next step runs (log 8). -/
def Obligations.PlacedInstructionRunsNext : Prop :=
  ∀ (s : State) (nbits w : Nat) (i : Instr), decodeTableWord nbits w = some i →
    step (s.withFetchWord nbits w) = exec i (s.withFetchWord nbits w)

/-! ### Host operations -/

/-- R42, R280, R283 with the spec's decisions D2, D3, D4 and D15: construction zeroes everything, reset sets the
defaults (I, B and B2 the only flags set), loads pc from the word at 0xFFFC and preserves memory. `State.reset` is
`reset` of the constructed core (log 1). -/
def Obligations.ResetSetsTheDefaults : Prop :=
  (∀ s : State,
    let t := s.hostReset
    t.a = 0x00 ∧ t.x = 0x00 ∧ t.y = 0x00 ∧ t.sp = 0x00 ∧ t.p = 0x34 ∧
      (∀ f, t.flag f = true ↔ f ∈ [Flag.i, .b, .b2]) ∧
      t.pc = s.readByte 0xFFFD ++ s.readByte 0xFFFC ∧ t.mem = s.mem ∧ t.run = .running) ∧
  (∀ k, newCore.readByte k = 0x00) ∧ newCore.a = 0x00 ∧ newCore.x = 0x00 ∧ newCore.y = 0x00 ∧ newCore.sp = 0x00 ∧
  newCore.p = 0x00 ∧ newCore.pc = 0x0000 ∧ newCore.run = .running ∧ State.reset = newCore.hostReset

/-- R281, R282 with the spec's decisions D5 and D6: `load` leaves its origin in the vector bytes, byte k of the program
at origin + k modulo 0x10000 unless a later byte or the vector fell there, every other byte and all other state as
before. The load of a mode uses that mode's origin. -/
def Obligations.LoadCopiesTheProgram : Prop :=
  ∀ (s : State) (origin : Addr) (bytes : List Byte),
    let t := s.loadAt origin bytes
    t.readByte 0xFFFC = origin.extractLsb' 0 8 ∧ t.readByte 0xFFFD = origin.extractLsb' 8 8 ∧
    (∀ (k : Nat) (hk : k < bytes.length),
      (∀ j, k < j → j < bytes.length → origin + BitVec.ofNat 16 j ≠ origin + BitVec.ofNat 16 k) →
      origin + BitVec.ofNat 16 k ≠ 0xFFFC → origin + BitVec.ofNat 16 k ≠ 0xFFFD →
      t.readByte (origin + BitVec.ofNat 16 k) = bytes[k]) ∧
    (∀ addr : Addr, addr ≠ 0xFFFC → addr ≠ 0xFFFD →
      (∀ k, k < bytes.length → origin + BitVec.ofNat 16 k ≠ addr) → t.readByte addr = s.readByte addr) ∧
    t = s.withMem t.mem ∧ (∀ mode, s.load bytes mode = s.loadAt (Config.loadOrigin mode) bytes)

/-- R10 with the spec's decision D5: the two modes load at different origins, whatever the two are (log 4). -/
def Obligations.LoadOriginsDiffer : Prop := ∀ m n : LoadMode, Config.loadOrigin m = Config.loadOrigin n → m = n

/-- R285, R287: after `load` and `reset` the core is Running in the reset state with pc at the mode's origin, whatever
the program is (log 4 for the origins). -/
def Obligations.LoadThenResetStartsAtTheOrigin : Prop :=
  ∀ (s : State) (bytes : List Byte) (mode : LoadMode),
    (s.load bytes mode).hostReset =
      { State.reset with pc := Config.loadOrigin mode, mem := (s.load bytes mode).mem }

/-- R127: a run that has ended stays ended: more fuel changes nothing, so the outcome of a run does not depend on the
host's bound (log 5). While it goes on, one more unit of fuel is one more step. -/
def Obligations.EndedRunStaysEnded : Prop :=
  ∀ (n k : Nat) (s : State),
    ((State.runSteps n s).run ≠ .running → State.runSteps (n + k) s = State.runSteps n s) ∧
    (∀ t, (State.runSteps n s).run = .running → step (State.runSteps n s) = .next t → State.runSteps (n + 1) s = t)

/-! ### Instructions: results, flags and frames -/

/-- R140, R141, with R142 and the spec's decision D12 (log 6) that D has no effect: ADC. That V says the signed sum is out
of range is R140's own derived reading of its formula. Constructors adcImm, adcZp, adcZpX, adcAbs, adcAbsX, adcAbsY,
adcIndX, adcIndY. -/
def Obligations.AdcAddsWithCarry : Prop :=
  ∀ (i : Instr) (s : State) (m : Byte), i.mnemonic = .adc → i.readOperand s = some m → AddsWithCarry i s m

/-- R143: SBC is ADC of -(m) - 1, which is the complement of m; C afterwards means no borrow. Constructors sbcImm, sbcZp,
sbcZpX, sbcAbs, sbcAbsX, sbcAbsY, sbcIndX, sbcIndY. -/
def Obligations.SbcSubtractsWithBorrow : Prop :=
  ∀ (i : Instr) (s : State) (m : Byte), i.mnemonic = .sbc → i.readOperand s = some m →
    AddsWithCarry i s (0 - m - 1) ∧ 0 - m - 1 = ~~~m ∧
    Completes i s fun t =>
      (t.flag .c = true ↔ m.toNat + (if s.flag .c then 0 else 1) ≤ s.a.toNat) ∧
        t.a = s.a - m - (if s.flag .c then 0 else 1)

/-- R144, R145, R146: AND, ORA, EOR. Constructors andImm, andZp, andZpX, andAbs, andAbsX, andAbsY, andIndX, andIndY,
and the eight ora… and eight eor… of the same modes. -/
def Obligations.LogicCombinesIntoA : Prop :=
  ∀ (i : Instr) (s : State) (m : Byte), i.readOperand s = some m →
    (i.mnemonic = .and → SetsA i s (s.a &&& m)) ∧ (i.mnemonic = .ora → SetsA i s (s.a ||| m)) ∧
    (i.mnemonic = .eor → SetsA i s (s.a ^^^ m))

/-- R150 to R154: ASL, LSR, ROL, ROR in the accumulator and the memory forms. Constructors aslZp, aslZpX, aslAbs,
aslAbsX, aslAcc and the five lsr…, five rol… and five ror… of the same forms. -/
def Obligations.ShiftsAndRotates : Prop :=
  ∀ (i : Instr) (s : State),
    let c : Byte := if s.flag .c then 1 else 0
    (i.mnemonic = .asl → Shifts i s (fun b => b <<< 1) fun b => b.getLsbD 7) ∧
    (i.mnemonic = .lsr → Shifts i s (fun b => b >>> 1) fun b => b.getLsbD 0) ∧
    (i.mnemonic = .rol → Shifts i s (fun b => b <<< 1 ||| c) fun b => b.getLsbD 7) ∧
    (i.mnemonic = .ror → Shifts i s (fun b => b >>> 1 ||| c <<< 7) fun b => b.getLsbD 0)

/-- R160 to R163: CMP, CPX, CPY. That Z says the register equals the operand is R160's own reading, derived from R33.
Constructors cmpImm, cmpZp, cmpZpX, cmpAbs, cmpAbsX, cmpAbsY, cmpIndX, cmpIndY, cpxImm,
cpxZp, cpxAbs, cpyImm, cpyZp, cpyAbs. -/
def Obligations.ComparesSetFlagsOnly : Prop :=
  ∀ (i : Instr) (s : State) (m : Byte), i.readOperand s = some m →
    (i.mnemonic = .cmp → Compares i s s.a m) ∧ (i.mnemonic = .cpx → Compares i s s.x m) ∧
    (i.mnemonic = .cpy → Compares i s s.y m)

/-- R164, R165: INC and DEC of the byte at the resolved address. Constructors incZp, incZpX, incAbs, incAbsX, decZp,
decZpX, decAbs, decAbsX. -/
def Obligations.IncAndDecWriteMemory : Prop :=
  ∀ (i : Instr) (s : State) (ea : Addr), i.ea s = some ea →
    (i.mnemonic = .inc → Completes i s fun t =>
      t.readByte ea = s.readByte ea + 1 ∧ ZNFrom t (s.readByte ea + 1) ∧ KeptBut [] [.z, .n] [ea] s t) ∧
    (i.mnemonic = .dec → Completes i s fun t =>
      t.readByte ea = s.readByte ea - 1 ∧ ZNFrom t (s.readByte ea - 1) ∧ KeptBut [] [.z, .n] [ea] s t)

/-- R166 to R169: INX, INY, DEX, DEY. Constructors inx, iny, dex, dey. -/
def Obligations.IndexRegistersCount : Prop :=
  ∀ s : State, SetsX .inx s (s.x + 1) ∧ SetsY .iny s (s.y + 1) ∧ SetsX .dex s (s.x - 1) ∧ SetsY .dey s (s.y - 1)

/-- R175 to R183: the eight branches. Constructors bcc, bcs, beq, bne, bmi, bpl, bvc, bvs. -/
def Obligations.BranchesFollowTheirFlag : Prop :=
  ∀ (s : State) (d : Byte),
    BranchesTo (.bcc d) s d (!s.flag .c) ∧ BranchesTo (.bcs d) s d (s.flag .c) ∧
    BranchesTo (.beq d) s d (s.flag .z) ∧ BranchesTo (.bne d) s d (!s.flag .z) ∧
    BranchesTo (.bmi d) s d (s.flag .n) ∧ BranchesTo (.bpl d) s d (!s.flag .n) ∧
    BranchesTo (.bvc d) s d (!s.flag .v) ∧ BranchesTo (.bvs d) s d (s.flag .v)

/-- R190 to R196: the flag instructions. Constructors clc, cld, cli, clv, sec, sed, sei. -/
def Obligations.FlagInstructionsWriteOneFlag : Prop :=
  ∀ s : State,
    WritesFlag .clc s .c false ∧ WritesFlag .cld s .d false ∧ WritesFlag .cli s .i false ∧
    WritesFlag .clv s .v false ∧ WritesFlag .sec s .c true ∧ WritesFlag .sed s .d true ∧ WritesFlag .sei s .i true

/-- R200, R201, R202: the loads. Constructors ldaImm, ldaZp, ldaZpX, ldaAbs, ldaAbsX, ldaAbsY, ldaIndX, ldaIndY, ldxImm,
ldxZp, ldxZpY, ldxAbs, ldxAbsY, ldyImm, ldyZp, ldyZpX, ldyAbs, ldyAbsX. -/
def Obligations.LoadsSetTheirRegister : Prop :=
  ∀ (i : Instr) (s : State) (m : Byte), i.readOperand s = some m →
    (i.mnemonic = .lda → SetsA i s m) ∧ (i.mnemonic = .ldx → SetsX i s m) ∧ (i.mnemonic = .ldy → SetsY i s m)

/-- R203, R204, R205: the stores. Constructors staZp, staZpX, staAbs, staAbsX, staAbsY, staIndX, staIndY, stxZp, stxZpY,
stxAbs, styZp, styZpX, styAbs. -/
def Obligations.StoresWriteOneByte : Prop :=
  ∀ (i : Instr) (s : State),
    (i.mnemonic = .sta → Stores i s s.a) ∧ (i.mnemonic = .stx → Stores i s s.x) ∧ (i.mnemonic = .sty → Stores i s s.y)

/-- R206 to R211: the transfers. Constructors tax, tay, txa, tya, tsx, txs. -/
def Obligations.TransfersCopyRegisters : Prop :=
  ∀ s : State,
    SetsX .tax s s.a ∧ SetsY .tay s s.a ∧ SetsA .txa s s.x ∧ SetsA .tya s s.y ∧ SetsX .tsx s s.sp ∧
    Completes .txs s fun t => t.sp = s.x ∧ KeptBut [.sp] [] [] s t

/-- R220, R221: PHA and PHP; the status is pushed as it is. Constructors pha, php. -/
def Obligations.PushesStoreTheirByte : Prop := ∀ s : State, Pushes .pha s s.a ∧ Pushes .php s s.p

/-- R222, R223: PLA and PLP; all eight flags come from the pulled byte. Constructors pla, plp. -/
def Obligations.PullsReadTheByteBelowSp : Prop :=
  ∀ s : State,
    let m := s.readByte (stackAddr (s.sp - 1))
    (Completes .pla s fun t => t.a = m ∧ t.sp = s.sp - 1 ∧ ZNFrom t m ∧ KeptBut [.a, .sp] [.z, .n] [] s t) ∧
    (Completes .plp s fun t => t.p = m ∧ (∀ f, t.flag f = m.getLsbD f.bit) ∧ t.sp = s.sp - 1 ∧
      KeptBut [.sp] [.c, .z, .i, .d, .b, .b2, .v, .n] [] s t)

/-- R230 with 90_conflicts.md C1 and the spec's decisions D7 and D10: JSR pushes its address + 3, low byte first, and
jumps. Constructor jsr. -/
def Obligations.JsrPushesTheReturnAddress : Prop :=
  ∀ (s : State) (addr : Addr),
    ∃ t, exec (.jsr addr) s = .next t ∧ t.pc = addr ∧ t.sp = s.sp + 2 ∧
      t.readByte (stackAddr s.sp) = (s.pc + 3).extractLsb' 0 8 ∧
      t.readByte (stackAddr s.sp + 1) = (s.pc + 3).extractLsb' 8 8 ∧
      KeptBut [.sp] [] [stackAddr s.sp, stackAddr s.sp + 1] s t

/-- R231 with the spec's decision D7 at the page edge: RTS pops the word below SP into pc, with no 1 added. Constructor
rts. -/
def Obligations.RtsPopsThePc : Prop :=
  ∀ s : State, ∃ t, exec .rts s = .next t ∧
    t.pc = s.readByte (stackAddr (s.sp - 2) + 1) ++ s.readByte (stackAddr (s.sp - 2)) ∧ t.sp = s.sp - 2 ∧
    KeptBut [.sp] [] [] s t

/-- R232, and for Indirect R92 with the spec's decision D9: JMP. Constructors jmpAbs, jmpInd. -/
def Obligations.JmpSetsThePc : Prop :=
  ∀ (s : State) (addr : Addr),
    (∃ t, exec (.jmpAbs addr) s = .next t ∧ t.pc = addr ∧ KeptBut [] [] [] s t) ∧
    (∃ t, exec (.jmpInd addr) s = .next t ∧ t.pc = s.readByte (addr + 1) ++ s.readByte addr ∧ KeptBut [] [] [] s t)

/-- R240, R255 with the spec's decisions D7 and D11: BRK pushes its address + 1 and P as it was, loads pc from 0xFFFE,
sets B and B2 and no other flag, and halts the run (R125). Constructor brk. -/
def Obligations.BrkTakesTheTrapAndHalts : Prop :=
  ∀ s : State, ∃ t, exec .brk s = .next t ∧
    t.readByte (stackAddr s.sp) = (s.pc + 1).extractLsb' 0 8 ∧
    t.readByte (stackAddr s.sp + 1) = (s.pc + 1).extractLsb' 8 8 ∧
    t.readByte (stackAddr (s.sp + 2)) = s.p ∧ t.sp = s.sp + 3 ∧
    t.pc = s.readByte 0xFFFF ++ s.readByte 0xFFFE ∧
    t.flag .b = true ∧ t.flag .b2 = true ∧ (∀ f, f ≠ .b → f ≠ .b2 → t.flag f = s.flag f) ∧
    (∀ r, r ≠ .sp → reg t r = reg s r) ∧
    (∀ k, k ∉ [stackAddr s.sp, stackAddr s.sp + 1, stackAddr (s.sp + 2)] → t.readByte k = s.readByte k) ∧
    t.run = .halted

/-- R241, R257 with the spec's decisions D7 and D11: RTI pulls all of P, then pc. Constructor rti. -/
def Obligations.RtiRestoresStatusAndPc : Prop :=
  ∀ s : State, ∃ t, exec .rti s = .next t ∧
    t.p = s.readByte (stackAddr (s.sp - 1)) ∧
    t.pc = s.readByte (stackAddr (s.sp - 3) + 1) ++ s.readByte (stackAddr (s.sp - 3)) ∧
    t.sp = s.sp - 3 ∧ KeptBut [.sp] [.c, .z, .i, .d, .b, .b2, .v, .n] [] s t

/-- R242: BIT. Constructors bitZp, bitAbs. -/
def Obligations.BitTestsWithoutWritingA : Prop :=
  ∀ (i : Instr) (s : State) (m : Byte), i.mnemonic = .bit → i.readOperand s = some m →
    Completes i s fun t =>
      (t.flag .z = true ↔ s.a &&& m = 0x00) ∧ t.flag .v = m.getLsbD 6 ∧ t.flag .n = m.getLsbD 7 ∧
        KeptBut [] [.z, .v, .n] [] s t

/-- R243: NOP. Constructor nop. -/
def Obligations.NopOnlyMovesThePc : Prop := ∀ s : State, exec .nop s = .next { s with pc := s.pc + 1 }

/-! ### Rules about every instruction -/

/-- R230, R231 with 90_conflicts.md C1 and the spec's decision D10: RTS run in the state a JSR left, wherever its pc has
gone, returns to the instruction after the JSR and restores SP, for every SP. -/
def Obligations.RtsReturnsAfterJsr : Prop :=
  ∀ (s t : State) (addr pc : Addr), exec (.jsr addr) s = .next t →
    ∃ u, exec .rts (t.withPc pc) = .next u ∧ u.pc = s.pc + 3 ∧ u.sp = s.sp ∧ u.p = s.p ∧ u.a = s.a

/-- R257 with the spec's decision D11: RTI is the inverse of BRK: run in the state a BRK left (a new run of the host,
R128), it restores P, SP and the address after the BRK, for every SP. -/
def Obligations.RtiUndoesBrk : Prop :=
  ∀ (s t : State) (pc : Addr), exec .brk s = .next t →
    ∃ u, exec .rti ((t.withPc pc).withRun .running) = .next u ∧ u.p = s.p ∧ u.pc = s.pc + 1 ∧ u.sp = s.sp ∧
      u.a = s.a ∧ u.x = s.x ∧ u.y = s.y ∧ u.run = .running

/-- R38, over all 151 instructions: an instruction changes only the flags its mnemonic's row lists as written, and is
influenced only by those it lists as read: with any other flag set to any value beforehand, the next state is the
same, that flag apart where the instruction does not write it. -/
def Obligations.FlagWritersAndReaders : Prop :=
  ∀ (i : Instr) (s t : State), exec i s = .next t →
    (∀ f, f ∉ flagsWritten i.mnemonic → t.flag f = s.flag f) ∧
    (∀ f on, f ∉ flagsRead i.mnemonic →
      exec i (s.setFlag f on) = .next (if f ∈ flagsWritten i.mnemonic then t else t.setFlag f on))

/-- R21, R22, R23, over all 151 instructions: A, X and Y are changed only by their listed writers and influence only
their listed readers, addressing modes included. -/
def Obligations.RegisterWritersAndReaders : Prop :=
  ∀ (i : Instr) (s t : State), exec i s = .next t →
    (writesA i = false → t.a = s.a) ∧ (writesX i = false → t.x = s.x) ∧ (writesY i = false → t.y = s.y) ∧
    (∀ v, readsA i = false → exec i (s.withA v) = .next (if writesA i then t else t.withA v)) ∧
    (∀ v, readsX i = false → exec i (s.withX v) = .next (if writesX i then t else t.withX v)) ∧
    (∀ v, readsY i = false → exec i (s.withY v) = .next (if writesY i then t else t.withY v))

/-- R25, over all 151 instructions: SP is changed only by the stack instructions and TXS, and influences only the stack
instructions and TSX. -/
def Obligations.StackPointerWritersAndReaders : Prop :=
  ∀ (i : Instr) (s t : State), exec i s = .next t →
    (usesStack i = false → i ≠ .txs → t.sp = s.sp) ∧
    (∀ v, usesStack i = false → i ≠ .tsx → exec i (s.withSp v) = .next (if i = .txs then t else t.withSp v))

/-- R124, over all 151 instructions but those that write pc (the untaken branches are in BranchesFollowTheirFlag): pc
ends at the opcode's address plus the length. With R84 to R95, executing at another pc gives the same next state, pc
moved likewise; for the Immediate forms this second clause is the model's choice, since their operand is the decoded
byte and not the memory byte at pc + 1 (log 9). -/
def Obligations.PcMovesPastTheInstruction : Prop :=
  ∀ (i : Instr) (s t : State), exec i s = .next t → writesPc i = false →
    t.pc = s.pc + BitVec.ofNat 16 i.length ∧
    ∀ pc, exec i (s.withPc pc) = .next (t.withPc (pc + BitVec.ofNat 16 i.length))

/-- R122, and log 9 for Immediate: two instructions of one mnemonic, in whatever addressing modes, with the same
resolved address and operand byte and the same state at the start of `Execute`, give equal results. -/
def Obligations.ModeOnlyDecidesTheAddress : Prop :=
  ∀ (i j : Instr) (s u : State), i.mnemonic = j.mnemonic → i.ea s = j.ea u → i.readOperand s = j.readOperand u →
    s.afterFetch i.operand = u.afterFetch j.operand → exec i s = exec j u

/-- R58, R65, R66, over all 151 instructions: memory changes only at the addresses the instruction stores to, and a
stack instruction stores only in 0x0100 to 0x0200 (the last byte by the spec's decision D7). -/
def Obligations.MemoryChangesOnlyWhereStored : Prop :=
  ∀ (i : Instr) (s t : State), exec i s = .next t →
    (∀ k, k ∉ storedAt i s → t.readByte k = s.readByte k) ∧
    (usesStack i = true → ∀ k ∈ storedAt i s, 0x0100 ≤ k.toNat ∧ k.toNat ≤ 0x0200)
end

