-- ==== Sys2Proof/Laws/Decode.lean ====
section
/-! SUPPORT. The table lookup: a row that is found is a row of the table and carries the code looked for. -/

namespace Sys2Proof

theorem findRow_mem {op : Byte} {rows : List OpRow} {row : OpRow} (h : findRow op rows = some row) : row ∈ rows := by
  induction rows with
  | nil => cases h
  | cons r rest ih =>
    simp only [findRow] at h
    split at h
    · cases h; exact List.mem_cons_self ..
    · exact List.mem_cons_of_mem _ (ih h)

theorem findRow_code {op : Byte} {rows : List OpRow} {row : OpRow} (h : findRow op rows = some row) :
    row.code = op := by
  induction rows with
  | nil => cases h
  | cons r rest ih =>
    simp only [findRow] at h
    split at h
    · cases h; assumption
    · exact ih h

theorem selectRow_mem {op : Byte} {base : Nat} {g : List (List OpRow)} {row : OpRow}
    (h : row ∈ selectRow op base g) : row ∈ g.flatten := by
  induction g generalizing base with
  | nil => cases h
  | cons l rest ih =>
    simp only [selectRow] at h
    split at h
    · exact List.mem_append_left _ h
    · exact List.mem_append_right _ (ih h)

/-- Everything the lookup can find. -/
theorem opRow_some {op : Byte} {row : OpRow} (h : opRow op = some row) : row ∈ opTable ∧ row.code = op :=
  ⟨selectRow_mem (findRow_mem h), findRow_code h⟩

/-- Everything the decoder can accept. -/
theorem decode_ok {op b1 b2 : Byte} {i : Instr} (h : decode op b1 b2 = .ok i) :
    ∃ row ∈ opTable, row.code = op ∧ i = row.format.fill b1 b2 := by
  unfold decode at h
  split at h <;> cases h
  exact ⟨_, (opRow_some ‹_›).1, (opRow_some ‹_›).2, rfl⟩

end Sys2Proof
end

