-- ==== Sys2Proof/Laws/State.lean ====
section
/-! SUPPORT. One lemma per field per update of the state, each true by rfl, so that no proof unfolds a record update. -/

namespace Sys2Proof.Machine

@[simp] theorem State.withA_a (s : State) (v : Byte) : (s.withA v).a = v := rfl
@[simp] theorem State.withA_x (s : State) (v : Byte) : (s.withA v).x = s.x := rfl
@[simp] theorem State.withA_y (s : State) (v : Byte) : (s.withA v).y = s.y := rfl
@[simp] theorem State.withA_sp (s : State) (v : Byte) : (s.withA v).sp = s.sp := rfl
@[simp] theorem State.withA_p (s : State) (v : Byte) : (s.withA v).p = s.p := rfl
@[simp] theorem State.withA_pc (s : State) (v : Byte) : (s.withA v).pc = s.pc := rfl
@[simp] theorem State.withA_mem (s : State) (v : Byte) : (s.withA v).mem = s.mem := rfl
@[simp] theorem State.withA_run (s : State) (v : Byte) : (s.withA v).run = s.run := rfl

@[simp] theorem State.withX_a (s : State) (v : Byte) : (s.withX v).a = s.a := rfl
@[simp] theorem State.withX_x (s : State) (v : Byte) : (s.withX v).x = v := rfl
@[simp] theorem State.withX_y (s : State) (v : Byte) : (s.withX v).y = s.y := rfl
@[simp] theorem State.withX_sp (s : State) (v : Byte) : (s.withX v).sp = s.sp := rfl
@[simp] theorem State.withX_p (s : State) (v : Byte) : (s.withX v).p = s.p := rfl
@[simp] theorem State.withX_pc (s : State) (v : Byte) : (s.withX v).pc = s.pc := rfl
@[simp] theorem State.withX_mem (s : State) (v : Byte) : (s.withX v).mem = s.mem := rfl
@[simp] theorem State.withX_run (s : State) (v : Byte) : (s.withX v).run = s.run := rfl

@[simp] theorem State.withY_a (s : State) (v : Byte) : (s.withY v).a = s.a := rfl
@[simp] theorem State.withY_x (s : State) (v : Byte) : (s.withY v).x = s.x := rfl
@[simp] theorem State.withY_y (s : State) (v : Byte) : (s.withY v).y = v := rfl
@[simp] theorem State.withY_sp (s : State) (v : Byte) : (s.withY v).sp = s.sp := rfl
@[simp] theorem State.withY_p (s : State) (v : Byte) : (s.withY v).p = s.p := rfl
@[simp] theorem State.withY_pc (s : State) (v : Byte) : (s.withY v).pc = s.pc := rfl
@[simp] theorem State.withY_mem (s : State) (v : Byte) : (s.withY v).mem = s.mem := rfl
@[simp] theorem State.withY_run (s : State) (v : Byte) : (s.withY v).run = s.run := rfl

@[simp] theorem State.withSp_a (s : State) (v : Byte) : (s.withSp v).a = s.a := rfl
@[simp] theorem State.withSp_x (s : State) (v : Byte) : (s.withSp v).x = s.x := rfl
@[simp] theorem State.withSp_y (s : State) (v : Byte) : (s.withSp v).y = s.y := rfl
@[simp] theorem State.withSp_sp (s : State) (v : Byte) : (s.withSp v).sp = v := rfl
@[simp] theorem State.withSp_p (s : State) (v : Byte) : (s.withSp v).p = s.p := rfl
@[simp] theorem State.withSp_pc (s : State) (v : Byte) : (s.withSp v).pc = s.pc := rfl
@[simp] theorem State.withSp_mem (s : State) (v : Byte) : (s.withSp v).mem = s.mem := rfl
@[simp] theorem State.withSp_run (s : State) (v : Byte) : (s.withSp v).run = s.run := rfl

@[simp] theorem State.withP_a (s : State) (v : Byte) : (s.withP v).a = s.a := rfl
@[simp] theorem State.withP_x (s : State) (v : Byte) : (s.withP v).x = s.x := rfl
@[simp] theorem State.withP_y (s : State) (v : Byte) : (s.withP v).y = s.y := rfl
@[simp] theorem State.withP_sp (s : State) (v : Byte) : (s.withP v).sp = s.sp := rfl
@[simp] theorem State.withP_p (s : State) (v : Byte) : (s.withP v).p = v := rfl
@[simp] theorem State.withP_pc (s : State) (v : Byte) : (s.withP v).pc = s.pc := rfl
@[simp] theorem State.withP_mem (s : State) (v : Byte) : (s.withP v).mem = s.mem := rfl
@[simp] theorem State.withP_run (s : State) (v : Byte) : (s.withP v).run = s.run := rfl

@[simp] theorem State.withPc_a (s : State) (v : Addr) : (s.withPc v).a = s.a := rfl
@[simp] theorem State.withPc_x (s : State) (v : Addr) : (s.withPc v).x = s.x := rfl
@[simp] theorem State.withPc_y (s : State) (v : Addr) : (s.withPc v).y = s.y := rfl
@[simp] theorem State.withPc_sp (s : State) (v : Addr) : (s.withPc v).sp = s.sp := rfl
@[simp] theorem State.withPc_p (s : State) (v : Addr) : (s.withPc v).p = s.p := rfl
@[simp] theorem State.withPc_pc (s : State) (v : Addr) : (s.withPc v).pc = v := rfl
@[simp] theorem State.withPc_mem (s : State) (v : Addr) : (s.withPc v).mem = s.mem := rfl
@[simp] theorem State.withPc_run (s : State) (v : Addr) : (s.withPc v).run = s.run := rfl

@[simp] theorem State.withMem_a (s : State) (v : Memory) : (s.withMem v).a = s.a := rfl
@[simp] theorem State.withMem_x (s : State) (v : Memory) : (s.withMem v).x = s.x := rfl
@[simp] theorem State.withMem_y (s : State) (v : Memory) : (s.withMem v).y = s.y := rfl
@[simp] theorem State.withMem_sp (s : State) (v : Memory) : (s.withMem v).sp = s.sp := rfl
@[simp] theorem State.withMem_p (s : State) (v : Memory) : (s.withMem v).p = s.p := rfl
@[simp] theorem State.withMem_pc (s : State) (v : Memory) : (s.withMem v).pc = s.pc := rfl
@[simp] theorem State.withMem_mem (s : State) (v : Memory) : (s.withMem v).mem = v := rfl
@[simp] theorem State.withMem_run (s : State) (v : Memory) : (s.withMem v).run = s.run := rfl

@[simp] theorem State.withRun_a (s : State) (v : RunState) : (s.withRun v).a = s.a := rfl
@[simp] theorem State.withRun_x (s : State) (v : RunState) : (s.withRun v).x = s.x := rfl
@[simp] theorem State.withRun_y (s : State) (v : RunState) : (s.withRun v).y = s.y := rfl
@[simp] theorem State.withRun_sp (s : State) (v : RunState) : (s.withRun v).sp = s.sp := rfl
@[simp] theorem State.withRun_p (s : State) (v : RunState) : (s.withRun v).p = s.p := rfl
@[simp] theorem State.withRun_pc (s : State) (v : RunState) : (s.withRun v).pc = s.pc := rfl
@[simp] theorem State.withRun_mem (s : State) (v : RunState) : (s.withRun v).mem = s.mem := rfl
@[simp] theorem State.withRun_run (s : State) (v : RunState) : (s.withRun v).run = v := rfl

/-! `setFlag` writes P only. -/

@[simp] theorem State.setFlag_p (s : State) (g : Flag) (on : Bool) : (s.setFlag g on).p = putFlag s.p g on := rfl
@[simp] theorem State.setFlag_a (s : State) (g : Flag) (on : Bool) : (s.setFlag g on).a = s.a := rfl
@[simp] theorem State.setFlag_x (s : State) (g : Flag) (on : Bool) : (s.setFlag g on).x = s.x := rfl
@[simp] theorem State.setFlag_y (s : State) (g : Flag) (on : Bool) : (s.setFlag g on).y = s.y := rfl
@[simp] theorem State.setFlag_sp (s : State) (g : Flag) (on : Bool) : (s.setFlag g on).sp = s.sp := rfl
@[simp] theorem State.setFlag_pc (s : State) (g : Flag) (on : Bool) : (s.setFlag g on).pc = s.pc := rfl
@[simp] theorem State.setFlag_mem (s : State) (g : Flag) (on : Bool) : (s.setFlag g on).mem = s.mem := rfl
@[simp] theorem State.setFlag_run (s : State) (g : Flag) (on : Bool) : (s.setFlag g on).run = s.run := rfl

/-! `setZN` writes Z and N of P only. -/

@[simp] theorem State.setZN_a (s : State) (r : Byte) : (s.setZN r).a = s.a := rfl
@[simp] theorem State.setZN_x (s : State) (r : Byte) : (s.setZN r).x = s.x := rfl
@[simp] theorem State.setZN_y (s : State) (r : Byte) : (s.setZN r).y = s.y := rfl
@[simp] theorem State.setZN_sp (s : State) (r : Byte) : (s.setZN r).sp = s.sp := rfl
@[simp] theorem State.setZN_pc (s : State) (r : Byte) : (s.setZN r).pc = s.pc := rfl
@[simp] theorem State.setZN_mem (s : State) (r : Byte) : (s.setZN r).mem = s.mem := rfl
@[simp] theorem State.setZN_run (s : State) (r : Byte) : (s.setZN r).run = s.run := rfl

/-! `advancePc` writes pc only; `afterFetch` of Machine/Operands.lean is an `advancePc`. -/

@[simp] theorem State.advancePc_pc (s : State) (k : Nat) : (s.advancePc k).pc = s.pc + BitVec.ofNat 16 k := rfl
@[simp] theorem State.advancePc_a (s : State) (k : Nat) : (s.advancePc k).a = s.a := rfl
@[simp] theorem State.advancePc_x (s : State) (k : Nat) : (s.advancePc k).x = s.x := rfl
@[simp] theorem State.advancePc_y (s : State) (k : Nat) : (s.advancePc k).y = s.y := rfl
@[simp] theorem State.advancePc_sp (s : State) (k : Nat) : (s.advancePc k).sp = s.sp := rfl
@[simp] theorem State.advancePc_p (s : State) (k : Nat) : (s.advancePc k).p = s.p := rfl
@[simp] theorem State.advancePc_mem (s : State) (k : Nat) : (s.advancePc k).mem = s.mem := rfl
@[simp] theorem State.advancePc_run (s : State) (k : Nat) : (s.advancePc k).run = s.run := rfl

/-! `writeByte` writes memory only. -/

@[simp] theorem State.writeByte_mem (s : State) (addr : Addr) (v : Byte) :
    (s.writeByte addr v).mem = Memory.set s.mem addr.toNat v := rfl
@[simp] theorem State.writeByte_a (s : State) (addr : Addr) (v : Byte) : (s.writeByte addr v).a = s.a := rfl
@[simp] theorem State.writeByte_x (s : State) (addr : Addr) (v : Byte) : (s.writeByte addr v).x = s.x := rfl
@[simp] theorem State.writeByte_y (s : State) (addr : Addr) (v : Byte) : (s.writeByte addr v).y = s.y := rfl
@[simp] theorem State.writeByte_sp (s : State) (addr : Addr) (v : Byte) : (s.writeByte addr v).sp = s.sp := rfl
@[simp] theorem State.writeByte_p (s : State) (addr : Addr) (v : Byte) : (s.writeByte addr v).p = s.p := rfl
@[simp] theorem State.writeByte_pc (s : State) (addr : Addr) (v : Byte) : (s.writeByte addr v).pc = s.pc := rfl
@[simp] theorem State.writeByte_run (s : State) (addr : Addr) (v : Byte) : (s.writeByte addr v).run = s.run := rfl

end Sys2Proof.Machine
end

