-- ==== Sys2Proof/Laws/Operands.lean ====
section
/-! SUPPORT. What the frame of a meaning can do: one lemma for each way it ends, cited instead of unfolding it. -/

namespace Sys2Proof.Machine

/-- A meaning that finds its byte runs its semantic function after the fetch. -/
theorem withByte_of_some {m : Mnemonic} {op : Operand} {f : Byte → State → State} {s : State} {byte : Byte}
    (h : operandByte op (s.advancePc 1) = some byte) : withByte m op f s = .next (f byte (s.afterFetch op)) := by
  simp only [withByte, h]

/-- A meaning that finds its address runs its semantic function after the fetch. -/
theorem withAddress_of_some {m : Mnemonic} {op : Operand} {f : Addr → State → State} {s : State} {ea : Addr}
    (h : effectiveAddress op (s.advancePc 1) = some ea) : withAddress m op f s = .next (f ea (s.afterFetch op)) := by
  simp only [withAddress, h]

/-- Everything `withByte` can answer. -/
theorem withByte_next {m : Mnemonic} {op : Operand} {f : Byte → State → State} {s t : State}
    (h : withByte m op f s = .next t) :
    (∃ byte, operandByte op (s.advancePc 1) = some byte ∧ t = f byte (s.afterFetch op)) ∨
      (operandByte op (s.advancePc 1) = none ∧ t = s.missing m op) := by
  unfold withByte at h
  split at h <;> cases h
  · exact .inl ⟨_, ‹_›, rfl⟩
  · exact .inr ⟨‹_›, rfl⟩

/-- Everything `withAddress` can answer. -/
theorem withAddress_next {m : Mnemonic} {op : Operand} {f : Addr → State → State} {s t : State}
    (h : withAddress m op f s = .next t) :
    (∃ ea, effectiveAddress op (s.advancePc 1) = some ea ∧ t = f ea (s.afterFetch op)) ∨
      (effectiveAddress op (s.advancePc 1) = none ∧ t = s.missing m op) := by
  unfold withAddress at h
  split at h <;> cases h
  · exact .inl ⟨_, ‹_›, rfl⟩
  · exact .inr ⟨‹_›, rfl⟩

/-- Everything `withLoc` can answer. -/
theorem withLoc_next {op : Operand} {f : Loc → State → State} {s t : State} (h : withLoc op f s = .next t) :
    t = f (locOf (effectiveAddress op (s.advancePc 1))) (s.afterFetch op) := by
  cases h; rfl

/-- Everything `implied` can answer. -/
theorem implied_next {f : State → State} {s t : State} (h : implied f s = .next t) : t = f (s.afterFetch .none) := by
  cases h; rfl

/-- Resolution yields no address exactly for NoneAddressing. -/
theorem effectiveAddress_eq_none {op : Operand} {s : State} : effectiveAddress op s = none ↔ op = .none := by
  cases op <;> simp [effectiveAddress]

/-- There is no operand byte exactly for NoneAddressing. -/
theorem operandByte_eq_none {op : Operand} {s : State} : operandByte op s = none ↔ op = .none := by
  cases op <;> simp [operandByte, effectiveAddress]

@[simp] theorem State.afterFetch_pc (s : State) (op : Operand) :
    (s.afterFetch op).pc = s.pc + BitVec.ofNat 16 (1 + op.size) := rfl
@[simp] theorem State.afterFetch_a (s : State) (op : Operand) : (s.afterFetch op).a = s.a := rfl
@[simp] theorem State.afterFetch_x (s : State) (op : Operand) : (s.afterFetch op).x = s.x := rfl
@[simp] theorem State.afterFetch_y (s : State) (op : Operand) : (s.afterFetch op).y = s.y := rfl
@[simp] theorem State.afterFetch_sp (s : State) (op : Operand) : (s.afterFetch op).sp = s.sp := rfl
@[simp] theorem State.afterFetch_p (s : State) (op : Operand) : (s.afterFetch op).p = s.p := rfl
@[simp] theorem State.afterFetch_mem (s : State) (op : Operand) : (s.afterFetch op).mem = s.mem := rfl
@[simp] theorem State.afterFetch_run (s : State) (op : Operand) : (s.afterFetch op).run = s.run := rfl

end Sys2Proof.Machine
end

