-- ==== Sys2Proof/Laws/Exec.lean ====
section
/-! SUPPORT. Execution by mnemonic: the meaning of a row is its mnemonic's semantic function run on its operand
(spec/40_execution_core.md R122). Proofs rewrite `exec` with `exec_eq` and never split over the 151 rows. -/

namespace Sys2Proof.Machine

/-- The semantic function of a mnemonic, in the frame its operand need gives it. -/
def byMnemonic (m : Mnemonic) (op : Operand) (s : State) : Result :=
  match m with
  | .adc => withByte .adc op semAdc s
  | .sbc => withByte .sbc op semSbc s
  | .and => withByte .and op semAnd s
  | .ora => withByte .ora op semOra s
  | .eor => withByte .eor op semEor s
  | .asl => withLoc op semAsl s
  | .lsr => withLoc op semLsr s
  | .rol => withLoc op semRol s
  | .ror => withLoc op semRor s
  | .cmp => withByte .cmp op semCmp s
  | .cpx => withByte .cpx op semCpx s
  | .cpy => withByte .cpy op semCpy s
  | .inc => withAddress .inc op semInc s
  | .dec => withAddress .dec op semDec s
  | .inx => implied semInx s
  | .iny => implied semIny s
  | .dex => implied semDex s
  | .dey => implied semDey s
  | .bcc => withAddress .bcc op semBcc s
  | .bcs => withAddress .bcs op semBcs s
  | .beq => withAddress .beq op semBeq s
  | .bne => withAddress .bne op semBne s
  | .bmi => withAddress .bmi op semBmi s
  | .bpl => withAddress .bpl op semBpl s
  | .bvc => withAddress .bvc op semBvc s
  | .bvs => withAddress .bvs op semBvs s
  | .clc => implied semClc s
  | .cld => implied semCld s
  | .cli => implied semCli s
  | .clv => implied semClv s
  | .sec => implied semSec s
  | .sed => implied semSed s
  | .sei => implied semSei s
  | .lda => withByte .lda op semLda s
  | .ldx => withByte .ldx op semLdx s
  | .ldy => withByte .ldy op semLdy s
  | .sta => withAddress .sta op semSta s
  | .stx => withAddress .stx op semStx s
  | .sty => withAddress .sty op semSty s
  | .tax => implied semTax s
  | .tay => implied semTay s
  | .txa => implied semTxa s
  | .tya => implied semTya s
  | .tsx => implied semTsx s
  | .txs => implied semTxs s
  | .pha => implied semPha s
  | .php => implied semPhp s
  | .pla => implied semPla s
  | .plp => implied semPlp s
  | .jsr => withAddress .jsr op semJsr s
  | .rts => implied semRts s
  | .jmp => withAddress .jmp op semJmp s
  | .brk => implied semBrk s
  | .rti => implied semRti s
  | .bit => withByte .bit op semBit s
  | .nop => implied semNop s

/-- Every row's meaning is that of its mnemonic on its operand. -/
theorem exec_eq (i : Instr) (s : State) : exec i s = byMnemonic i.mnemonic i.operand s := by
  cases i <;> rfl

end Sys2Proof.Machine
end

