-- ==== Sys2Proof/Laws/Flags.lean ====
section
/-! SUPPORT. The status byte: reading a flag after writing one, and what each flag computation leaves. -/

namespace Sys2Proof.Machine

/-- The flags lie in different bits of P. -/
theorem Flag.bit_inj {f g : Flag} : f.bit = g.bit ↔ f = g := by cases f <;> cases g <;> decide

theorem Flag.bit_lt (f : Flag) : f.bit < 8 := by cases f <;> decide

/-- Reading a flag of a status byte in which one flag was written. -/
theorem flagOf_putFlag (p : Byte) (f g : Flag) (on : Bool) :
    flagOf (putFlag p f on) g = if g = f then on else flagOf p g := by
  revert p; cases f <;> cases g <;> cases on <;> decide

@[simp] theorem flagOf_putFlag_same (p : Byte) (f : Flag) (on : Bool) : flagOf (putFlag p f on) f = on := by
  simp [flagOf_putFlag]

/-- Two status bytes with the same eight flags are equal. -/
theorem status_ext {p q : Byte} (h : ∀ f, flagOf p f = flagOf q f) : p = q := by
  apply BitVec.eq_of_getLsbD_eq
  intro k hk
  have := h .c; have := h .z; have := h .i; have := h .d; have := h .b; have := h .b2; have := h .v; have := h .n
  simp only [flagOf, Flag.bit] at *
  interval_cases k <;> assumption

/-- Writing a flag twice keeps the second value. -/
@[simp] theorem putFlag_putFlag (p : Byte) (f : Flag) (x y : Bool) : putFlag (putFlag p f x) f y = putFlag p f y := by
  apply status_ext; intro g; simp only [flagOf_putFlag]; split <;> rfl

/-- Writes of different flags commute. -/
theorem putFlag_comm (p : Byte) {f g : Flag} (x y : Bool) (h : f ≠ g) :
    putFlag (putFlag p f x) g y = putFlag (putFlag p g y) f x := by
  apply status_ext; intro k; simp only [flagOf_putFlag]; split <;> split <;> simp_all

/-- The flags are P's: a state with the same P has the same flags. -/
theorem State.flag_eq (s : State) (f : Flag) : s.flag f = flagOf s.p f := rfl

@[simp] theorem State.setZN_p (s : State) (r : Byte) :
    (s.setZN r).p = putFlag (putFlag s.p .z (r == 0)) .n (r.getLsbD 7) := rfl

@[simp] theorem State.compare_p (s : State) (reg m : Byte) :
    (s.compare reg m).p = putFlag (putFlag (putFlag s.p .c (decide (m.toNat ≤ reg.toNat))) .z (reg - m == 0)) .n
      ((reg - m).getLsbD 7) := rfl

/-- `addWithCarry` writes A and P only. -/
theorem State.addWithCarry_frame (s : State) (m : Byte) :
    (s.addWithCarry m).x = s.x ∧ (s.addWithCarry m).y = s.y ∧ (s.addWithCarry m).sp = s.sp ∧
      (s.addWithCarry m).pc = s.pc ∧ (s.addWithCarry m).mem = s.mem ∧ (s.addWithCarry m).run = s.run :=
  ⟨rfl, rfl, rfl, rfl, rfl, rfl⟩

end Sys2Proof.Machine
end

