-- ==== Sys2Proof/Laws/Memory.lean ====
section
/-! SUPPORT. Memory as a list: read after write, every operation keeps the canonical form, and canonical memories that
read alike are equal. -/

namespace Sys2Proof.Machine

/-! ### What each list operation reads as -/

theorem Memory.get_erase (m : Memory) (addr k : Nat) :
    Memory.get (Memory.erase m addr) k = if k = addr then Memory.blank else Memory.get m k := by
  induction m with
  | nil => simp [Memory.erase, Memory.get]
  | cons e rest ih =>
    obtain ⟨a, b⟩ := e
    simp only [Memory.erase]
    split
    · next h => subst h; rw [ih]; simp only [Memory.get]; split <;> simp_all [eq_comm]
    · next h => simp only [Memory.get, ih]; split <;> split <;> simp_all

/-- No entry of the list is for the address. -/
theorem Memory.erase_fresh (m : Memory) (addr : Nat) : ∀ e ∈ Memory.erase m addr, e.1 ≠ addr := by
  induction m with
  | nil => simp [Memory.erase]
  | cons e rest ih =>
    obtain ⟨a, b⟩ := e
    simp only [Memory.erase]
    split
    · exact ih
    · intro e he
      rcases List.mem_cons.mp he with rfl | h
      · assumption
      · exact ih e h

theorem Memory.get_insert_fresh (m : Memory) (addr k : Nat) (v : Byte) (h : ∀ e ∈ m, e.1 ≠ addr) :
    Memory.get (Memory.insert m addr v) k = if k = addr then v else Memory.get m k := by
  induction m with
  | nil => simp only [Memory.insert, Memory.get, eq_comm]
  | cons e rest ih =>
    obtain ⟨a, b⟩ := e
    have ha : a ≠ addr := h _ (List.mem_cons_self ..)
    have ih := ih fun e he => h e (List.mem_cons_of_mem _ he)
    simp only [Memory.insert]
    split
    · simp only [Memory.get, eq_comm]
    · simp only [Memory.get, ih]
      split <;> split <;> simp_all

/-- Read after write, for every list: the written address gives the byte, every other address what it gave before. -/
theorem Memory.get_set (m : Memory) (addr k : Nat) (v : Byte) :
    Memory.get (Memory.set m addr v) k = if k = addr then v else Memory.get m k := by
  unfold Memory.set
  split
  · next h => rw [Memory.get_erase, h]
  · rw [Memory.get_insert_fresh _ _ _ _ (Memory.erase_fresh m addr), Memory.get_erase]
    split <;> rfl

@[simp] theorem Memory.get_set_same (m : Memory) (addr : Nat) (v : Byte) :
    Memory.get (Memory.set m addr v) addr = v := by simp [Memory.get_set]

theorem Memory.get_set_other (m : Memory) {addr k : Nat} (v : Byte) (h : k ≠ addr) :
    Memory.get (Memory.set m addr v) k = Memory.get m k := by simp [Memory.get_set, h]

/-! ### The canonical form -/

theorem Memory.risingFrom_cons {lo k : Nat} {b : Byte} {rest : Memory} :
    Memory.risingFrom lo ((k, b) :: rest) = true ↔
      lo ≤ k ∧ k < 0x10000 ∧ b ≠ Memory.blank ∧ Memory.risingFrom (k + 1) rest = true := by
  simp [Memory.risingFrom, and_assoc]

theorem Memory.risingFrom_mono {m : Memory} {lo lo' : Nat} (h : lo' ≤ lo) (hm : Memory.risingFrom lo m = true) :
    Memory.risingFrom lo' m = true := by
  cases m with
  | nil => rfl
  | cons e rest =>
    obtain ⟨k, b⟩ := e
    rw [Memory.risingFrom_cons] at hm ⊢
    exact ⟨h.trans hm.1, hm.2⟩

theorem Memory.risingFrom_erase {m : Memory} {lo : Nat} (addr : Nat) (h : Memory.risingFrom lo m = true) :
    Memory.risingFrom lo (Memory.erase m addr) = true := by
  induction m generalizing lo with
  | nil => rfl
  | cons e rest ih =>
    obtain ⟨k, b⟩ := e
    rw [Memory.risingFrom_cons] at h
    simp only [Memory.erase]
    split
    · exact ih (Memory.risingFrom_mono (by omega) h.2.2.2)
    · rw [Memory.risingFrom_cons]
      exact ⟨h.1, h.2.1, h.2.2.1, ih h.2.2.2⟩

theorem Memory.risingFrom_insert {m : Memory} {lo addr : Nat} {v : Byte} (hlo : lo ≤ addr) (ha : addr < 0x10000)
    (hv : v ≠ Memory.blank) (hm : ∀ e ∈ m, e.1 ≠ addr) (h : Memory.risingFrom lo m = true) :
    Memory.risingFrom lo (Memory.insert m addr v) = true := by
  induction m generalizing lo with
  | nil => exact Memory.risingFrom_cons.mpr ⟨hlo, ha, hv, rfl⟩
  | cons e rest ih =>
    obtain ⟨k, b⟩ := e
    rw [Memory.risingFrom_cons] at h
    have hk : k ≠ addr := hm _ (List.mem_cons_self ..)
    simp only [Memory.insert]
    split
    · exact Memory.risingFrom_cons.mpr ⟨hlo, ha, hv, Memory.risingFrom_cons.mpr ⟨by omega, h.2⟩⟩
    · exact Memory.risingFrom_cons.mpr
        ⟨h.1, h.2.1, h.2.2.1, ih (by omega) (fun e he => hm e (List.mem_cons_of_mem _ he)) h.2.2.2⟩

/-- Writing a byte at an address of the space keeps the canonical form. -/
theorem Memory.wf_set {m : Memory} {addr : Nat} (v : Byte) (ha : addr < 0x10000) (h : Memory.wf m = true) :
    Memory.wf (Memory.set m addr v) = true := by
  unfold Memory.wf Memory.set at *
  split
  · exact Memory.risingFrom_erase addr h
  · exact Memory.risingFrom_insert (Nat.zero_le _) ha ‹_› (Memory.erase_fresh m addr) (Memory.risingFrom_erase addr h)

theorem Memory.get_below {m : Memory} {lo k : Nat} (h : Memory.risingFrom lo m = true) (hk : k < lo) :
    Memory.get m k = Memory.blank := by
  induction m generalizing lo with
  | nil => rfl
  | cons e rest ih =>
    obtain ⟨a, b⟩ := e
    rw [Memory.risingFrom_cons] at h
    simp only [Memory.get, if_neg (show ¬ a = k by omega)]
    exact ih h.2.2.2 (by omega)

/-- Canonical memories that read alike at every address are equal data. -/
theorem Memory.eq_of_get_eq {m n : Memory} {lo : Nat} (hm : Memory.risingFrom lo m = true)
    (hn : Memory.risingFrom lo n = true) (h : ∀ k, Memory.get m k = Memory.get n k) : m = n := by
  induction m generalizing n lo with
  | nil =>
    cases n with
    | nil => rfl
    | cons e rest =>
      obtain ⟨k, b⟩ := e
      have := h k
      simp only [Memory.get, if_true] at this
      exact absurd this.symm (Memory.risingFrom_cons.mp hn).2.2.1
  | cons e rest ih =>
    obtain ⟨k, b⟩ := e
    have hm' := Memory.risingFrom_cons.mp hm
    cases n with
    | nil =>
      have := h k
      simp only [Memory.get, if_true] at this
      exact absurd this hm'.2.2.1
    | cons e' rest' =>
      obtain ⟨k', b'⟩ := e'
      have hn' := Memory.risingFrom_cons.mp hn
      have hkk : k = k' := by
        rcases Nat.lt_trichotomy k k' with hlt | heq | hlt
        · have := h k
          rw [Memory.get_below (lo := k') (Memory.risingFrom_cons.mpr ⟨le_refl _, hn'.2⟩) hlt] at this
          simp only [Memory.get, if_true] at this
          exact absurd this hm'.2.2.1
        · exact heq
        · have := h k'
          rw [Memory.get_below (lo := k) (Memory.risingFrom_cons.mpr ⟨le_refl _, hm'.2⟩) hlt] at this
          simp only [Memory.get, if_true] at this
          exact absurd this.symm hn'.2.2.1
      subst hkk
      have hb : b = b' := by simpa [Memory.get] using h k
      subst hb
      congr 1
      refine ih hm'.2.2.2 hn'.2.2.2 fun j => ?_
      by_cases hj : k = j
      · subst hj
        rw [Memory.get_below hm'.2.2.2 (Nat.lt_succ_self _), Memory.get_below hn'.2.2.2 (Nat.lt_succ_self _)]
      · simpa [Memory.get, hj] using h j

/-! ### Bytes of the state -/

theorem State.readByte_writeByte (s : State) (addr k : Addr) (v : Byte) :
    (s.writeByte addr v).readByte k = if k = addr then v else s.readByte k := by
  simp only [State.readByte, State.writeByte_mem, Memory.get_set, BitVec.toNat_inj]

/-- Reading depends on memory only. -/
theorem State.readByte_congr {s t : State} (h : t.mem = s.mem) (addr : Addr) : t.readByte addr = s.readByte addr := by
  simp only [State.readByte, h]

theorem State.readWord_congr {s t : State} (h : t.mem = s.mem) (addr : Addr) : t.readWord addr = s.readWord addr := by
  simp only [State.readWord, State.readByte_congr h]

theorem State.wf_writeByte {s : State} (addr : Addr) (v : Byte) (h : Memory.wf s.mem = true) :
    Memory.wf (s.writeByte addr v).mem = true := Memory.wf_set v addr.isLt h

theorem State.wf_writeWord {s : State} (addr v : Addr) (h : Memory.wf s.mem = true) :
    Memory.wf (s.writeWord addr v).mem = true := State.wf_writeByte _ _ (State.wf_writeByte _ _ h)

theorem State.wf_push8 {s : State} (v : Byte) (h : Memory.wf s.mem = true) : Memory.wf (s.push8 v).mem = true :=
  State.wf_writeByte (stackAddr s.sp) v h

theorem State.wf_push16 {s : State} (v : Addr) (h : Memory.wf s.mem = true) : Memory.wf (s.push16 v).mem = true :=
  State.wf_writeWord (stackAddr s.sp) v h

end Sys2Proof.Machine
end

