-- ==== Sys2Proof/Laws/Ops.lean ====
section
/-! SUPPORT. The shared operations over the stack, the run state, BRK and RTI: what each leaves in every field, and what
it reads or writes in memory. -/

namespace Sys2Proof.Machine

/-! ### Words and stack addresses -/

@[simp] theorem lowByte_wordOf (lo hi : Byte) : lowByte (wordOf lo hi) = lo := by
  unfold lowByte wordOf
  apply BitVec.eq_of_getLsbD_eq
  intro i hi'
  simp only [BitVec.getLsbD_extractLsb', BitVec.getLsbD_append]
  simp [hi']

@[simp] theorem highByte_wordOf (lo hi : Byte) : highByte (wordOf lo hi) = hi := by
  unfold highByte wordOf
  apply BitVec.eq_of_getLsbD_eq
  intro i hi'
  simp only [BitVec.getLsbD_extractLsb', BitVec.getLsbD_append]
  simp [hi', show ¬ 8 + i < 8 by omega]

@[simp] theorem wordOf_low_high (w : Addr) : wordOf (lowByte w) (highByte w) = w := by
  unfold wordOf lowByte highByte
  apply BitVec.eq_of_getLsbD_eq
  intro i hi
  simp only [BitVec.getLsbD_append, BitVec.getLsbD_extractLsb']
  by_cases h : i < 8
  · simp [h]
  · simp [h, show i - 8 < 8 by omega, show 8 + (i - 8) = i by omega]

/-- A stack address as a number. -/
theorem stackAddr_toNat (sp : Byte) : (stackAddr sp).toNat = 0x100 + sp.toNat := by
  have := sp.isLt
  simp [stackAddr, BitVec.toNat_add, BitVec.toNat_setWidth]
  omega

/-- The two bytes of a word lie at different addresses. -/
theorem addr_succ_ne (addr : Addr) : addr + 1 ≠ addr := by
  intro h; bv_omega

theorem State.readByte_writeWord (s : State) (addr k v : Addr) :
    (s.writeWord addr v).readByte k =
      if k = addr + 1 then highByte v else if k = addr then lowByte v else s.readByte k := by
  simp only [State.writeWord, State.readByte_writeByte]

/-! ### The stack -/

@[simp] theorem State.push8_a (s : State) (v : Byte) : (s.push8 v).a = s.a := rfl
@[simp] theorem State.push8_x (s : State) (v : Byte) : (s.push8 v).x = s.x := rfl
@[simp] theorem State.push8_y (s : State) (v : Byte) : (s.push8 v).y = s.y := rfl
@[simp] theorem State.push8_sp (s : State) (v : Byte) : (s.push8 v).sp = s.sp + 1 := rfl
@[simp] theorem State.push8_p (s : State) (v : Byte) : (s.push8 v).p = s.p := rfl
@[simp] theorem State.push8_pc (s : State) (v : Byte) : (s.push8 v).pc = s.pc := rfl
@[simp] theorem State.push8_mem (s : State) (v : Byte) : (s.push8 v).mem = Memory.set s.mem (stackAddr s.sp).toNat v := rfl
@[simp] theorem State.push8_run (s : State) (v : Byte) : (s.push8 v).run = s.run := rfl

@[simp] theorem State.push16_a (s : State) (v : Addr) : (s.push16 v).a = s.a := rfl
@[simp] theorem State.push16_x (s : State) (v : Addr) : (s.push16 v).x = s.x := rfl
@[simp] theorem State.push16_y (s : State) (v : Addr) : (s.push16 v).y = s.y := rfl
@[simp] theorem State.push16_sp (s : State) (v : Addr) : (s.push16 v).sp = s.sp + 2 := rfl
@[simp] theorem State.push16_p (s : State) (v : Addr) : (s.push16 v).p = s.p := rfl
@[simp] theorem State.push16_pc (s : State) (v : Addr) : (s.push16 v).pc = s.pc := rfl
@[simp] theorem State.push16_mem (s : State) (v : Addr) : (s.push16 v).mem = (s.writeWord (stackAddr s.sp) v).mem := rfl
@[simp] theorem State.push16_run (s : State) (v : Addr) : (s.push16 v).run = s.run := rfl

theorem State.readByte_push8 (s : State) (v : Byte) (k : Addr) :
    (s.push8 v).readByte k = if k = stackAddr s.sp then v else s.readByte k := s.readByte_writeByte (stackAddr s.sp) k v

theorem State.readByte_push16 (s : State) (v k : Addr) :
    (s.push16 v).readByte k =
      if k = stackAddr s.sp + 1 then highByte v else if k = stackAddr s.sp then lowByte v else s.readByte k :=
  s.readByte_writeWord (stackAddr s.sp) k v

@[simp] theorem State.pop8_fst (s : State) : s.pop8.1 = s.readByte (stackAddr (s.sp - 1)) := rfl
@[simp] theorem State.pop8_snd (s : State) : s.pop8.2 = s.withSp (s.sp - 1) := rfl
@[simp] theorem State.pop16_fst (s : State) : s.pop16.1 = s.readWord (stackAddr (s.sp - 2)) := rfl
@[simp] theorem State.pop16_snd (s : State) : s.pop16.2 = s.withSp (s.sp - 2) := rfl

/-! ### The run state -/

@[simp] theorem State.raise_eq (s : State) (f : Fault) : s.raise f = s.withRun (.faulted f) := rfl
@[simp] theorem State.halt_eq (s : State) : s.halt = s.withRun .halted := rfl

/-- The whole effect of an undefined code. -/
theorem State.unrecognized_eq (s : State) (op : Byte) :
    s.unrecognized op = { s with pc := s.pc + 1, run := .faulted (.unrecognizedOpcode op s.pc) } := rfl

/-- The whole effect of a missing operand. -/
theorem State.missing_eq (s : State) (m : Mnemonic) (op : Operand) :
    s.missing m op =
      { s with pc := s.pc + BitVec.ofNat 16 (1 + op.size), run := .faulted (.missingOperand m s.pc) } := rfl

/-! ### BRK and RTI -/

@[simp] theorem State.enterBreak_a (s : State) : s.enterBreak.a = s.a := by
  simp [State.enterBreak]
@[simp] theorem State.enterBreak_x (s : State) : s.enterBreak.x = s.x := by
  simp [State.enterBreak]
@[simp] theorem State.enterBreak_y (s : State) : s.enterBreak.y = s.y := by
  simp [State.enterBreak]
@[simp] theorem State.enterBreak_sp (s : State) : s.enterBreak.sp = s.sp + 2 + 1 := by
  simp [State.enterBreak]
@[simp] theorem State.enterBreak_p (s : State) : s.enterBreak.p = putFlag (putFlag s.p .b true) .b2 true := by
  simp [State.enterBreak]
@[simp] theorem State.enterBreak_pc (s : State) : s.enterBreak.pc = ((s.push16 s.pc).push8 s.p).readWord breakVector := by
  simp [State.enterBreak]
@[simp] theorem State.enterBreak_mem (s : State) : s.enterBreak.mem = ((s.push16 s.pc).push8 s.p).mem := by
  simp [State.enterBreak]
@[simp] theorem State.enterBreak_run (s : State) : s.enterBreak.run = s.run := by
  simp [State.enterBreak]

@[simp] theorem State.returnFromBreak_a (s : State) : s.returnFromBreak.a = s.a := by
  simp [State.returnFromBreak, State.readWord, State.readByte]
@[simp] theorem State.returnFromBreak_x (s : State) : s.returnFromBreak.x = s.x := by
  simp [State.returnFromBreak, State.readWord, State.readByte]
@[simp] theorem State.returnFromBreak_y (s : State) : s.returnFromBreak.y = s.y := by
  simp [State.returnFromBreak, State.readWord, State.readByte]
@[simp] theorem State.returnFromBreak_sp (s : State) : s.returnFromBreak.sp = s.sp - 1 - 2 := by
  simp [State.returnFromBreak, State.readWord, State.readByte]
@[simp] theorem State.returnFromBreak_p (s : State) : s.returnFromBreak.p = s.readByte (stackAddr (s.sp - 1)) := by
  simp [State.returnFromBreak, State.readWord, State.readByte]
@[simp] theorem State.returnFromBreak_pc (s : State) : s.returnFromBreak.pc = s.readWord (stackAddr (s.sp - 1 - 2)) := by
  simp [State.returnFromBreak, State.readWord, State.readByte]
@[simp] theorem State.returnFromBreak_mem (s : State) : s.returnFromBreak.mem = s.mem := by
  simp [State.returnFromBreak, State.readWord, State.readByte]
@[simp] theorem State.returnFromBreak_run (s : State) : s.returnFromBreak.run = s.run := by
  simp [State.returnFromBreak, State.readWord, State.readByte]

/-! ### The step -/

/-- Everything a step can answer. -/
theorem step_cases (s : State) :
    (∃ i, s.run = .running ∧ s.fetch = .ok i ∧ step s = exec i s) ∨
    (∃ op, s.run = .running ∧ s.fetch = .error (.undefinedCode op) ∧ step s = .next (s.unrecognized op)) ∨
    (s.run = .halted ∧ step s = .refused .halted) ∨ (∃ f, s.run = .faulted f ∧ step s = .fault f) := by
  unfold step
  split
  · next h =>
    split
    · exact .inl ⟨_, h, ‹_›, rfl⟩
    · exact .inr (.inl ⟨_, h, ‹_›, rfl⟩)
  · next h => exact .inr (.inr (.inl ⟨h, rfl⟩))
  · next f h => exact .inr (.inr (.inr ⟨f, h, rfl⟩))

/-- The decoder refuses only the code it was given. -/
theorem decode_error {op b1 b2 : Byte} {e : DecodeError} (h : decode op b1 b2 = .error e) : e = .undefinedCode op := by
  unfold decode at h
  split at h <;> cases h
  rfl

end Sys2Proof.Machine
end

