-- ==== Sys2Proof/Laws/PerInstr.lean ====
section
/-! SUPPORT. Facts about every instruction as syntax, one lemma per constructor. -/

namespace Sys2Proof.Laws.WellFormed

/-- The instruction's mnemonic and operand fit together, and its code is as long as its mode says. -/
def Statement (i : Instr) : Prop := i.wf = true ∧ (encode i).length = i.length

theorem adcImm (v : Byte) : Statement (.adcImm v) := ⟨rfl, rfl⟩
theorem adcZp (zp : Byte) : Statement (.adcZp zp) := ⟨rfl, rfl⟩
theorem adcZpX (zp : Byte) : Statement (.adcZpX zp) := ⟨rfl, rfl⟩
theorem adcAbs (addr : Addr) : Statement (.adcAbs addr) := ⟨rfl, rfl⟩
theorem adcAbsX (addr : Addr) : Statement (.adcAbsX addr) := ⟨rfl, rfl⟩
theorem adcAbsY (addr : Addr) : Statement (.adcAbsY addr) := ⟨rfl, rfl⟩
theorem adcIndX (zp : Byte) : Statement (.adcIndX zp) := ⟨rfl, rfl⟩
theorem adcIndY (zp : Byte) : Statement (.adcIndY zp) := ⟨rfl, rfl⟩
theorem sbcImm (v : Byte) : Statement (.sbcImm v) := ⟨rfl, rfl⟩
theorem sbcZp (zp : Byte) : Statement (.sbcZp zp) := ⟨rfl, rfl⟩
theorem sbcZpX (zp : Byte) : Statement (.sbcZpX zp) := ⟨rfl, rfl⟩
theorem sbcAbs (addr : Addr) : Statement (.sbcAbs addr) := ⟨rfl, rfl⟩
theorem sbcAbsX (addr : Addr) : Statement (.sbcAbsX addr) := ⟨rfl, rfl⟩
theorem sbcAbsY (addr : Addr) : Statement (.sbcAbsY addr) := ⟨rfl, rfl⟩
theorem sbcIndX (zp : Byte) : Statement (.sbcIndX zp) := ⟨rfl, rfl⟩
theorem sbcIndY (zp : Byte) : Statement (.sbcIndY zp) := ⟨rfl, rfl⟩
theorem andImm (v : Byte) : Statement (.andImm v) := ⟨rfl, rfl⟩
theorem andZp (zp : Byte) : Statement (.andZp zp) := ⟨rfl, rfl⟩
theorem andZpX (zp : Byte) : Statement (.andZpX zp) := ⟨rfl, rfl⟩
theorem andAbs (addr : Addr) : Statement (.andAbs addr) := ⟨rfl, rfl⟩
theorem andAbsX (addr : Addr) : Statement (.andAbsX addr) := ⟨rfl, rfl⟩
theorem andAbsY (addr : Addr) : Statement (.andAbsY addr) := ⟨rfl, rfl⟩
theorem andIndX (zp : Byte) : Statement (.andIndX zp) := ⟨rfl, rfl⟩
theorem andIndY (zp : Byte) : Statement (.andIndY zp) := ⟨rfl, rfl⟩
theorem oraImm (v : Byte) : Statement (.oraImm v) := ⟨rfl, rfl⟩
theorem oraZp (zp : Byte) : Statement (.oraZp zp) := ⟨rfl, rfl⟩
theorem oraZpX (zp : Byte) : Statement (.oraZpX zp) := ⟨rfl, rfl⟩
theorem oraAbs (addr : Addr) : Statement (.oraAbs addr) := ⟨rfl, rfl⟩
theorem oraAbsX (addr : Addr) : Statement (.oraAbsX addr) := ⟨rfl, rfl⟩
theorem oraAbsY (addr : Addr) : Statement (.oraAbsY addr) := ⟨rfl, rfl⟩
theorem oraIndX (zp : Byte) : Statement (.oraIndX zp) := ⟨rfl, rfl⟩
theorem oraIndY (zp : Byte) : Statement (.oraIndY zp) := ⟨rfl, rfl⟩
theorem eorImm (v : Byte) : Statement (.eorImm v) := ⟨rfl, rfl⟩
theorem eorZp (zp : Byte) : Statement (.eorZp zp) := ⟨rfl, rfl⟩
theorem eorZpX (zp : Byte) : Statement (.eorZpX zp) := ⟨rfl, rfl⟩
theorem eorAbs (addr : Addr) : Statement (.eorAbs addr) := ⟨rfl, rfl⟩
theorem eorAbsX (addr : Addr) : Statement (.eorAbsX addr) := ⟨rfl, rfl⟩
theorem eorAbsY (addr : Addr) : Statement (.eorAbsY addr) := ⟨rfl, rfl⟩
theorem eorIndX (zp : Byte) : Statement (.eorIndX zp) := ⟨rfl, rfl⟩
theorem eorIndY (zp : Byte) : Statement (.eorIndY zp) := ⟨rfl, rfl⟩
theorem aslZp (zp : Byte) : Statement (.aslZp zp) := ⟨rfl, rfl⟩
theorem aslZpX (zp : Byte) : Statement (.aslZpX zp) := ⟨rfl, rfl⟩
theorem aslAbs (addr : Addr) : Statement (.aslAbs addr) := ⟨rfl, rfl⟩
theorem aslAbsX (addr : Addr) : Statement (.aslAbsX addr) := ⟨rfl, rfl⟩
theorem aslAcc : Statement .aslAcc := ⟨rfl, rfl⟩
theorem lsrZp (zp : Byte) : Statement (.lsrZp zp) := ⟨rfl, rfl⟩
theorem lsrZpX (zp : Byte) : Statement (.lsrZpX zp) := ⟨rfl, rfl⟩
theorem lsrAbs (addr : Addr) : Statement (.lsrAbs addr) := ⟨rfl, rfl⟩
theorem lsrAbsX (addr : Addr) : Statement (.lsrAbsX addr) := ⟨rfl, rfl⟩
theorem lsrAcc : Statement .lsrAcc := ⟨rfl, rfl⟩
theorem rolZp (zp : Byte) : Statement (.rolZp zp) := ⟨rfl, rfl⟩
theorem rolZpX (zp : Byte) : Statement (.rolZpX zp) := ⟨rfl, rfl⟩
theorem rolAbs (addr : Addr) : Statement (.rolAbs addr) := ⟨rfl, rfl⟩
theorem rolAbsX (addr : Addr) : Statement (.rolAbsX addr) := ⟨rfl, rfl⟩
theorem rolAcc : Statement .rolAcc := ⟨rfl, rfl⟩
theorem rorZp (zp : Byte) : Statement (.rorZp zp) := ⟨rfl, rfl⟩
theorem rorZpX (zp : Byte) : Statement (.rorZpX zp) := ⟨rfl, rfl⟩
theorem rorAbs (addr : Addr) : Statement (.rorAbs addr) := ⟨rfl, rfl⟩
theorem rorAbsX (addr : Addr) : Statement (.rorAbsX addr) := ⟨rfl, rfl⟩
theorem rorAcc : Statement .rorAcc := ⟨rfl, rfl⟩
theorem cmpImm (v : Byte) : Statement (.cmpImm v) := ⟨rfl, rfl⟩
theorem cmpZp (zp : Byte) : Statement (.cmpZp zp) := ⟨rfl, rfl⟩
theorem cmpZpX (zp : Byte) : Statement (.cmpZpX zp) := ⟨rfl, rfl⟩
theorem cmpAbs (addr : Addr) : Statement (.cmpAbs addr) := ⟨rfl, rfl⟩
theorem cmpAbsX (addr : Addr) : Statement (.cmpAbsX addr) := ⟨rfl, rfl⟩
theorem cmpAbsY (addr : Addr) : Statement (.cmpAbsY addr) := ⟨rfl, rfl⟩
theorem cmpIndX (zp : Byte) : Statement (.cmpIndX zp) := ⟨rfl, rfl⟩
theorem cmpIndY (zp : Byte) : Statement (.cmpIndY zp) := ⟨rfl, rfl⟩
theorem cpxImm (v : Byte) : Statement (.cpxImm v) := ⟨rfl, rfl⟩
theorem cpxZp (zp : Byte) : Statement (.cpxZp zp) := ⟨rfl, rfl⟩
theorem cpxAbs (addr : Addr) : Statement (.cpxAbs addr) := ⟨rfl, rfl⟩
theorem cpyImm (v : Byte) : Statement (.cpyImm v) := ⟨rfl, rfl⟩
theorem cpyZp (zp : Byte) : Statement (.cpyZp zp) := ⟨rfl, rfl⟩
theorem cpyAbs (addr : Addr) : Statement (.cpyAbs addr) := ⟨rfl, rfl⟩
theorem incZp (zp : Byte) : Statement (.incZp zp) := ⟨rfl, rfl⟩
theorem incZpX (zp : Byte) : Statement (.incZpX zp) := ⟨rfl, rfl⟩
theorem incAbs (addr : Addr) : Statement (.incAbs addr) := ⟨rfl, rfl⟩
theorem incAbsX (addr : Addr) : Statement (.incAbsX addr) := ⟨rfl, rfl⟩
theorem decZp (zp : Byte) : Statement (.decZp zp) := ⟨rfl, rfl⟩
theorem decZpX (zp : Byte) : Statement (.decZpX zp) := ⟨rfl, rfl⟩
theorem decAbs (addr : Addr) : Statement (.decAbs addr) := ⟨rfl, rfl⟩
theorem decAbsX (addr : Addr) : Statement (.decAbsX addr) := ⟨rfl, rfl⟩
theorem inx : Statement .inx := ⟨rfl, rfl⟩
theorem iny : Statement .iny := ⟨rfl, rfl⟩
theorem dex : Statement .dex := ⟨rfl, rfl⟩
theorem dey : Statement .dey := ⟨rfl, rfl⟩
theorem bcc (d : Byte) : Statement (.bcc d) := ⟨rfl, rfl⟩
theorem bcs (d : Byte) : Statement (.bcs d) := ⟨rfl, rfl⟩
theorem beq (d : Byte) : Statement (.beq d) := ⟨rfl, rfl⟩
theorem bne (d : Byte) : Statement (.bne d) := ⟨rfl, rfl⟩
theorem bmi (d : Byte) : Statement (.bmi d) := ⟨rfl, rfl⟩
theorem bpl (d : Byte) : Statement (.bpl d) := ⟨rfl, rfl⟩
theorem bvc (d : Byte) : Statement (.bvc d) := ⟨rfl, rfl⟩
theorem bvs (d : Byte) : Statement (.bvs d) := ⟨rfl, rfl⟩
theorem clc : Statement .clc := ⟨rfl, rfl⟩
theorem cld : Statement .cld := ⟨rfl, rfl⟩
theorem cli : Statement .cli := ⟨rfl, rfl⟩
theorem clv : Statement .clv := ⟨rfl, rfl⟩
theorem sec : Statement .sec := ⟨rfl, rfl⟩
theorem sed : Statement .sed := ⟨rfl, rfl⟩
theorem sei : Statement .sei := ⟨rfl, rfl⟩
theorem ldaImm (v : Byte) : Statement (.ldaImm v) := ⟨rfl, rfl⟩
theorem ldaZp (zp : Byte) : Statement (.ldaZp zp) := ⟨rfl, rfl⟩
theorem ldaZpX (zp : Byte) : Statement (.ldaZpX zp) := ⟨rfl, rfl⟩
theorem ldaAbs (addr : Addr) : Statement (.ldaAbs addr) := ⟨rfl, rfl⟩
theorem ldaAbsX (addr : Addr) : Statement (.ldaAbsX addr) := ⟨rfl, rfl⟩
theorem ldaAbsY (addr : Addr) : Statement (.ldaAbsY addr) := ⟨rfl, rfl⟩
theorem ldaIndX (zp : Byte) : Statement (.ldaIndX zp) := ⟨rfl, rfl⟩
theorem ldaIndY (zp : Byte) : Statement (.ldaIndY zp) := ⟨rfl, rfl⟩
theorem ldxImm (v : Byte) : Statement (.ldxImm v) := ⟨rfl, rfl⟩
theorem ldxZp (zp : Byte) : Statement (.ldxZp zp) := ⟨rfl, rfl⟩
theorem ldxZpY (zp : Byte) : Statement (.ldxZpY zp) := ⟨rfl, rfl⟩
theorem ldxAbs (addr : Addr) : Statement (.ldxAbs addr) := ⟨rfl, rfl⟩
theorem ldxAbsY (addr : Addr) : Statement (.ldxAbsY addr) := ⟨rfl, rfl⟩
theorem ldyImm (v : Byte) : Statement (.ldyImm v) := ⟨rfl, rfl⟩
theorem ldyZp (zp : Byte) : Statement (.ldyZp zp) := ⟨rfl, rfl⟩
theorem ldyZpX (zp : Byte) : Statement (.ldyZpX zp) := ⟨rfl, rfl⟩
theorem ldyAbs (addr : Addr) : Statement (.ldyAbs addr) := ⟨rfl, rfl⟩
theorem ldyAbsX (addr : Addr) : Statement (.ldyAbsX addr) := ⟨rfl, rfl⟩
theorem staZp (zp : Byte) : Statement (.staZp zp) := ⟨rfl, rfl⟩
theorem staZpX (zp : Byte) : Statement (.staZpX zp) := ⟨rfl, rfl⟩
theorem staAbs (addr : Addr) : Statement (.staAbs addr) := ⟨rfl, rfl⟩
theorem staAbsX (addr : Addr) : Statement (.staAbsX addr) := ⟨rfl, rfl⟩
theorem staAbsY (addr : Addr) : Statement (.staAbsY addr) := ⟨rfl, rfl⟩
theorem staIndX (zp : Byte) : Statement (.staIndX zp) := ⟨rfl, rfl⟩
theorem staIndY (zp : Byte) : Statement (.staIndY zp) := ⟨rfl, rfl⟩
theorem stxZp (zp : Byte) : Statement (.stxZp zp) := ⟨rfl, rfl⟩
theorem stxZpY (zp : Byte) : Statement (.stxZpY zp) := ⟨rfl, rfl⟩
theorem stxAbs (addr : Addr) : Statement (.stxAbs addr) := ⟨rfl, rfl⟩
theorem styZp (zp : Byte) : Statement (.styZp zp) := ⟨rfl, rfl⟩
theorem styZpX (zp : Byte) : Statement (.styZpX zp) := ⟨rfl, rfl⟩
theorem styAbs (addr : Addr) : Statement (.styAbs addr) := ⟨rfl, rfl⟩
theorem tax : Statement .tax := ⟨rfl, rfl⟩
theorem tay : Statement .tay := ⟨rfl, rfl⟩
theorem txa : Statement .txa := ⟨rfl, rfl⟩
theorem tya : Statement .tya := ⟨rfl, rfl⟩
theorem tsx : Statement .tsx := ⟨rfl, rfl⟩
theorem txs : Statement .txs := ⟨rfl, rfl⟩
theorem pha : Statement .pha := ⟨rfl, rfl⟩
theorem php : Statement .php := ⟨rfl, rfl⟩
theorem pla : Statement .pla := ⟨rfl, rfl⟩
theorem plp : Statement .plp := ⟨rfl, rfl⟩
theorem jsr (addr : Addr) : Statement (.jsr addr) := ⟨rfl, rfl⟩
theorem rts : Statement .rts := ⟨rfl, rfl⟩
theorem jmpAbs (addr : Addr) : Statement (.jmpAbs addr) := ⟨rfl, rfl⟩
theorem jmpInd (ptr : Addr) : Statement (.jmpInd ptr) := ⟨rfl, rfl⟩
theorem brk : Statement .brk := ⟨rfl, rfl⟩
theorem rti : Statement .rti := ⟨rfl, rfl⟩
theorem bitZp (zp : Byte) : Statement (.bitZp zp) := ⟨rfl, rfl⟩
theorem bitAbs (addr : Addr) : Statement (.bitAbs addr) := ⟨rfl, rfl⟩
theorem nop : Statement .nop := ⟨rfl, rfl⟩

end Sys2Proof.Laws.WellFormed
end

