-- ==== Sys2Proof/Laws/Semantics.lean ====
section
/-! SUPPORT. What the operations shared by several meanings do: the operand location, branches, shifts, the stores of
JSR and BRK, the need for an address, and copying a program. -/

namespace Sys2Proof.Machine

/-- Two states with equal fields are equal. -/
theorem State.eq_of_fields {s t : State} (a : s.a = t.a) (x : s.x = t.x) (y : s.y = t.y) (sp : s.sp = t.sp)
    (p : s.p = t.p) (pc : s.pc = t.pc) (mem : s.mem = t.mem) (run : s.run = t.run) : s = t := by
  cases s; cases t; simp_all

/-- A mnemonic that needs an address has an operand; one that needs nothing has none. -/
theorem operand_of_needs (i : Instr) :
    (i.mnemonic.needs = .address → i.operand ≠ .none) ∧ (i.mnemonic.needs = .nothing → i.operand = .none) := by
  cases i <;> simp [Instr.mnemonic, Mnemonic.needs, Instr.operand]

theorem State.readByte_afterFetch (s : State) (op : Operand) (k : Addr) :
    (s.afterFetch op).readByte k = s.readByte k := State.readByte_congr rfl k

/-! ### Branches -/

/-- Everything a branch can do. -/
theorem State.branch_cases (s : State) (f : Flag) (want : Bool) (ea : Addr) :
    (s.flag f = want ∧ s.branch f want ea = s.withPc ea) ∨ (s.flag f ≠ want ∧ s.branch f want ea = s) := by
  unfold State.branch
  split
  · exact .inl ⟨‹_›, rfl⟩
  · exact .inr ⟨‹_›, rfl⟩

/-! ### Shifts and rotates -/

/-- The common tail of the shifts on the accumulator. -/
theorem shiftLoc_accumulator (s : State) (r : Byte) (carry : Bool) :
    shiftLoc .accumulator r carry s = ((s.withA r).setFlag .c carry).setZN r := rfl

/-- The common tail of the shifts on memory. -/
theorem shiftLoc_memoryAt (s : State) (addr : Addr) (r : Byte) (carry : Bool) :
    shiftLoc (.memoryAt addr) r carry s = ((s.writeByte addr r).setFlag .c carry).setZN r := rfl

/-- A shift changes no byte but the one it is at. -/
theorem readByte_shiftLoc {l : Loc} {k : Addr} (s : State) (r : Byte) (carry : Bool) (h : l ≠ .memoryAt k) :
    (shiftLoc l r carry s).readByte k = s.readByte k := by
  cases l with
  | accumulator => rfl
  | memoryAt addr =>
    exact (State.readByte_writeByte s addr k r).trans (if_neg fun hk => h (by rw [hk]))

/-! ### The stores of JSR and BRK -/

theorem readByte_semJsr (ea k : Addr) (s : State) :
    (semJsr ea s).readByte k =
      if k = stackAddr s.sp + 1 then highByte s.pc else if k = stackAddr s.sp then lowByte s.pc else s.readByte k := by
  rw [← State.readByte_push16]; exact State.readByte_congr (by simp [semJsr]) k

theorem readByte_semBrk (s : State) (k : Addr) :
    (semBrk s).readByte k =
      if k = stackAddr (s.sp + 2) then s.p else if k = stackAddr s.sp + 1 then highByte s.pc
      else if k = stackAddr s.sp then lowByte s.pc else s.readByte k := by
  rw [show (semBrk s).readByte k = ((s.push16 s.pc).push8 s.p).readByte k from
    State.readByte_congr (by simp [semBrk]) k, State.readByte_push8, State.readByte_push16]
  rfl

/-- The byte pushed third lies apart from the two pushed first. -/
theorem stackAddr_add_two_ne (sp : Byte) :
    stackAddr (sp + 2) ≠ stackAddr sp ∧ stackAddr (sp + 2) ≠ stackAddr sp + 1 := by
  have h1 := stackAddr_toNat sp
  have h2 := stackAddr_toNat (sp + 2)
  have := sp.isLt
  have e : (sp + 2).toNat = (sp.toNat + 2) % 256 := by simp [BitVec.toNat_add]
  constructor <;> intro h <;> have h' := congrArg BitVec.toNat h <;>
    simp only [BitVec.toNat_add, h1, h2, e] at h' <;> simp at h' <;> omega

/-- The stack never reaches the interrupt vector. -/
theorem vector_ne_stackAddr (sp : Byte) {v : Addr} (hv : 0xFFFE ≤ v.toNat) :
    v ≠ stackAddr sp ∧ v ≠ stackAddr sp + 1 := by
  have h1 := stackAddr_toNat sp
  have := sp.isLt
  constructor <;> intro h <;> have h' := congrArg BitVec.toNat h <;>
    simp only [BitVec.toNat_add, h1] at h' <;> (try simp at h') <;> omega

/-! ### Copying a program -/

/-- Address `k + 1` of a run is address `k` of the run one higher. -/
theorem addr_add_succ (addr : Addr) (k : Nat) :
    addr + BitVec.ofNat 16 (k + 1) = addr + 1 + BitVec.ofNat 16 k := by
  rw [Nat.add_comm, BitVec.ofNat_add, ← BitVec.add_assoc]; rfl

/-- Copying writes memory only. -/
theorem State.copyBytes_eq (s : State) (addr : Addr) (bytes : List Byte) :
    s.copyBytes addr bytes = s.withMem (s.copyBytes addr bytes).mem := by
  induction bytes generalizing s addr with
  | nil => rfl
  | cons b rest ih => simp only [State.copyBytes]; rw [ih]; rfl

/-- Copying changes no byte outside the run. -/
theorem State.readByte_copyBytes_other (s : State) (addr k : Addr) (bytes : List Byte)
    (h : ∀ j, j < bytes.length → addr + BitVec.ofNat 16 j ≠ k) :
    (s.copyBytes addr bytes).readByte k = s.readByte k := by
  induction bytes generalizing s addr with
  | nil => rfl
  | cons b rest ih =>
    simp only [State.copyBytes]
    rw [ih]
    · rw [State.readByte_writeByte, if_neg]
      intro e; exact h 0 (by simp) (by rw [e]; simp)
    · intro j hj; rw [← addr_add_succ]; exact h (j + 1) (by simpa using hj)

/-- A copied byte is there unless a later byte of the run fell on it. -/
theorem State.readByte_copyBytes_at (s : State) (addr : Addr) (bytes : List Byte) (k : Nat) (hk : k < bytes.length)
    (h : ∀ j, k < j → j < bytes.length → addr + BitVec.ofNat 16 j ≠ addr + BitVec.ofNat 16 k) :
    (s.copyBytes addr bytes).readByte (addr + BitVec.ofNat 16 k) = bytes[k] := by
  induction bytes generalizing s addr k with
  | nil => simp at hk
  | cons b rest ih =>
    simp only [State.copyBytes]
    cases k with
    | zero =>
      rw [State.readByte_copyBytes_other]
      · simp [State.readByte_writeByte]
      · intro j hj; rw [← addr_add_succ]; exact h (j + 1) (by simp) (by simpa using hj)
    | succ k =>
      rw [addr_add_succ, ih _ _ k (by simpa using hk)]
      · simp
      · intro j hj hl; rw [← addr_add_succ, ← addr_add_succ]; exact h (j + 1) (by omega) (by simpa using hl)

/-- One unit of fuel more. -/
theorem State.runSteps_succ (fuel : Nat) (s : State) :
    State.runSteps (fuel + 1) s =
      match s.run with
      | .running =>
        match step s with
        | .next t => State.runSteps fuel t
        | _ => s
      | _ => s := rfl

end Sys2Proof.Machine
end

