-- ==== Sys2Proof/Tests/Slice0.lean ====
section
/-! SUPPORT. Tests on fixed values and the witnesses of the statements' hypotheses. The expected values are those of
spec/95_test_vectors.md (V<n>) or of the example of the rule named (R<n>), never the model's own answers. -/

namespace Sys2Proof.Tests

open Sys2Proof Sys2Proof.Machine Sys2Proof.Claims

/-! ### Helpers -/

/-- The reset state with a few bytes placed at pc. -/
def code (pc : Addr) (bytes : List Byte) : State := (State.reset.withPc pc).copyBytes pc bytes

/-- One step answers a next state of which `P` holds. -/
abbrev after (s : State) (P : State → Bool) : Prop :=
  (match step s with
  | .next t => P t
  | _ => false) = true

/-- The state a meaning leaves, or the state itself where it has no next state. -/
def next (r : Result) (s : State) : State :=
  match r with
  | .next t => t
  | _ => s

/-! ### Arithmetic and logic -/

/-- R141 example. -/
theorem test_adc_sets_overflow :
    after (code 0x0600 [0x69, 0x50] |>.withA 0x50) fun t =>
      t.a == 0xA0 && t.p == 0xF4 := by decide

/-- V10 row 8. -/
theorem test_adc_carries_out :
    after (code 0x0600 [0x69, 0xFF] |>.withA 0xFF |>.withP 0x35) fun t =>
      t.a == 0xFF && t.p == 0xB5 := by decide

/-- V11. -/
theorem test_adc_is_binary :
    after (code 0x0600 [0x69, 0x01] |>.withA 0x09 |>.withP 0x3C) fun t =>
      t.a == 0x0A && t.p == 0x3C := by decide

/-- V12. -/
theorem test_adc_reads_memory :
    after (code 0x0600 [0x65, 0x10] |>.withA 0x11 |>.writeByte 0x0010 0x22) fun t =>
      t.a == 0x33 && t.readByte 0x0010 == 0x22 := by decide

/-- R143 example. -/
theorem test_sbc_borrows :
    after (code 0x0600 [0xE9, 0xB0] |>.withA 0x50 |>.withP 0x35) fun t =>
      t.a == 0xA0 && t.p == 0xF4 := by decide

/-- V13 row 11. -/
theorem test_sbc_of_ff_without_carry :
    after (code 0x0600 [0xE9, 0xFF] |>.withA 0x10) fun t =>
      t.a == 0x10 && t.p == 0x34 := by decide

/-- V14 row 1. -/
theorem test_and_keeps_carry_and_overflow :
    after (code 0x0600 [0x29, 0x3C] |>.withA 0xF0 |>.withP 0x75) fun t =>
      t.a == 0x30 && t.p == 0x75 := by decide

/-- V14 row 4. -/
theorem test_ora_sets_negative :
    after (code 0x0600 [0x09, 0x80] |>.withA 0x0F) fun t =>
      t.a == 0x8F && t.p == 0xB4 := by decide

/-- V14 row 7. -/
theorem test_eor_clears :
    after (code 0x0600 [0x49, 0x5A] |>.withA 0x5A) fun t =>
      t.a == 0x00 && t.p == 0x36 := by decide

/-! ### Shifts and rotates -/

/-- V6. -/
theorem test_asl_accumulator :
    after (code 0x0600 [0x0A] |>.withA 0xAA) fun t =>
      t.a == 0x54 && t.p == 0x35 := by decide

/-- V16. -/
theorem test_asl_zero_page_x_wraps :
    after (code 0x0600 [0x16, 0xFF] |>.withX 0x01 |>.writeByte 0x0000 0x81) fun t =>
      t.readByte 0x0000 == 0x02 && t.readByte 0x0100 == 0x00 && t.p == 0x35 := by decide

/-- V16. -/
theorem test_lsr_memory_keeps_a :
    after (code 0x0600 [0x46, 0x10] |>.withA 0x77 |>.writeByte 0x0010 0x03) fun t =>
      t.readByte 0x0010 == 0x01 && t.a == 0x77 && t.p == 0x35 := by decide

/-- V15 row 6. -/
theorem test_lsr_accumulator :
    after (code 0x0600 [0x4A] |>.withA 0x80 |>.withP 0x35) fun t =>
      t.a == 0x40 && t.p == 0x34 := by decide

/-- V15 row 9. -/
theorem test_rol_takes_old_carry :
    after (code 0x0600 [0x2A] |>.withA 0x40 |>.withP 0x35) fun t =>
      t.a == 0x81 && t.p == 0xB4 := by decide

/-- V16. -/
theorem test_ror_absolute_x :
    after (code 0x0600 [0x7E, 0x00, 0x02] |>.withX 0x10 |>.withP 0x35 |>.writeByte 0x0210 0x01) fun t =>
      t.readByte 0x0210 == 0x80 && t.p == 0xB5 := by decide

/-- V15 row 11. -/
theorem test_ror_accumulator :
    after (code 0x0600 [0x6A] |>.withA 0x01) fun t =>
      t.a == 0x00 && t.p == 0x37 := by decide

/-! ### Compares, increments, decrements -/

/-- V17 row 2. -/
theorem test_cmp_below :
    after (code 0x0600 [0xC9, 0x20] |>.withA 0x10 |>.withP 0x75) fun t =>
      t.a == 0x10 && t.p == 0xF4 := by decide

/-- V17 row 7. -/
theorem test_cmp_negative_without_borrow :
    after (code 0x0600 [0xC9, 0x00] |>.withA 0xFF) fun t =>
      t.p == 0xB5 := by decide

/-- R162 example. -/
theorem test_cpx_equal :
    after (code 0x0600 [0xE0, 0x05] |>.withX 0x05) fun t =>
      t.p == 0x37 := by decide

/-- R163 example. -/
theorem test_cpy_below :
    after (code 0x0600 [0xC0, 0x04] |>.withY 0x03) fun t =>
      t.p == 0xB4 := by decide

/-- V18 row 1. -/
theorem test_inc_wraps_keeping_carry :
    after (code 0x0600 [0xE6, 0x10] |>.withP 0x35 |>.writeByte 0x0010 0xFF) fun t =>
      t.readByte 0x0010 == 0x00 && t.p == 0x37 := by decide

/-- R165 example. -/
theorem test_dec_wraps :
    after (code 0x0600 [0xCE, 0x00, 0x03]) fun t =>
      t.readByte 0x0300 == 0xFF && t.p == 0xB4 := by decide

/-- R166 example. -/
theorem test_inx_sign :
    after (code 0x0600 [0xE8] |>.withX 0x7F) fun t =>
      t.x == 0x80 && t.p == 0xB4 := by decide

/-- V18 row 1. -/
theorem test_iny_wraps :
    after (code 0x0600 [0xC8] |>.withY 0xFF) fun t =>
      t.y == 0x00 && t.p == 0x36 := by decide

/-- R168 example. -/
theorem test_dex_to_zero :
    after (code 0x0600 [0xCA] |>.withX 0x01) fun t =>
      t.x == 0x00 && t.p == 0x36 := by decide

/-- R169 example. -/
theorem test_dey :
    after (code 0x0600 [0x88] |>.withY 0x80) fun t =>
      t.y == 0x7F && t.p == 0x34 := by decide

/-! ### Branches (V19) -/

/-- V19. -/
theorem test_bcc_taken :
    after (code 0x0600 [0x90, 0x02]) fun t =>
      t.pc == 0x0604 && t.p == 0x34 := by decide

/-- V19. -/
theorem test_bcc_not_taken :
    after (code 0x0600 [0x90, 0x02] |>.withP 0x35) fun t =>
      t.pc == 0x0602 := by decide

/-- V19. -/
theorem test_bcs_to_itself :
    after (code 0x0600 [0xB0, 0xFE] |>.withP 0x35) fun t =>
      t.pc == 0x0600 := by decide

/-- V19. -/
theorem test_beq_taken :
    after (code 0x0610 [0xF0, 0x10] |>.withP 0x36) fun t =>
      t.pc == 0x0622 := by decide

/-- V19. -/
theorem test_bne_backward :
    after (code 0x0608 [0xD0, 0xFB]) fun t =>
      t.pc == 0x0605 := by decide

/-- V19. -/
theorem test_bne_forward_across_page :
    after (code 0x06FE [0xD0, 0x7F]) fun t =>
      t.pc == 0x077F := by decide

/-- V19. -/
theorem test_bmi_wraps_past_the_top :
    after (code 0xFFF0 [0x30, 0x7F] |>.withP 0xB4) fun t =>
      t.pc == 0x0071 := by decide

/-- V19. -/
theorem test_bpl_wraps_below_zero :
    after (code 0x0000 [0x10, 0x80]) fun t =>
      t.pc == 0xFF82 := by decide

/-- V19. -/
theorem test_bvc_zero_displacement :
    after (code 0x0600 [0x50, 0x00]) fun t =>
      t.pc == 0x0602 := by decide

/-- V19. -/
theorem test_bvs_taken :
    after (code 0x0600 [0x70, 0x10] |>.withP 0x74) fun t =>
      t.pc == 0x0612 := by decide

/-- V19. -/
theorem test_bvs_not_taken :
    after (code 0x0600 [0x70, 0x10]) fun t =>
      t.pc == 0x0602 := by decide

/-! ### Flag instructions (V20) -/

/-- V20. -/
theorem test_clc :
    after (code 0x0600 [0x18] |>.withP 0x35) fun t =>
      t.p == 0x34 := by decide

/-- V20. -/
theorem test_sec :
    after (code 0x0600 [0x38] |>.withP 0x34) fun t =>
      t.p == 0x35 := by decide

/-- V20. -/
theorem test_cld :
    after (code 0x0600 [0xD8] |>.withP 0x3C) fun t =>
      t.p == 0x34 := by decide

/-- V20. -/
theorem test_sed :
    after (code 0x0600 [0xF8] |>.withP 0x34) fun t =>
      t.p == 0x3C := by decide

/-- V20. -/
theorem test_cli :
    after (code 0x0600 [0x58] |>.withP 0x34) fun t =>
      t.p == 0x30 := by decide

/-- V20. -/
theorem test_sei :
    after (code 0x0600 [0x78] |>.withP 0x30) fun t =>
      t.p == 0x34 := by decide

/-- V20. -/
theorem test_clv :
    after (code 0x0600 [0xB8] |>.withP 0xFF) fun t =>
      t.p == 0xBF := by decide

/-! ### Loads, stores, transfers -/

/-- V21. -/
theorem test_lda_keeps_carry_and_overflow :
    after (code 0x0600 [0xA9, 0x80] |>.withP 0x77) fun t =>
      t.a == 0x80 && t.p == 0xF5 := by decide

/-- V7. -/
theorem test_lda_indirect_y :
    after (code 0x0600 [0xB1, 0x40] |>.withY 0x05 |>.writeByte 0x0041 0x03 |>.writeByte 0x0305 0x99) fun t =>
      t.a == 0x99 && t.p == 0xB4 := by decide

/-- V21. -/
theorem test_ldx_immediate :
    after (code 0x0600 [0xA2, 0xFF]) fun t =>
      t.x == 0xFF && t.p == 0xB4 := by decide

/-- R87 with V34 row 5. -/
theorem test_ldx_zero_page_y :
    after (code 0x0600 [0xB6, 0xF0] |>.withY 0x20 |>.writeByte 0x0010 0x42) fun t =>
      t.x == 0x42 := by decide

/-- V21. -/
theorem test_ldy_zero_page :
    after (code 0x0600 [0xA4, 0x10] |>.writeByte 0x0010 0x7F) fun t =>
      t.y == 0x7F && t.p == 0x34 := by decide

/-- V7. -/
theorem test_sta_indirect_y :
    after (code 0x0600 [0x91, 0xF0] |>.withA 0x0F |>.withY 0x03 |>.writeByte 0x00F1 0x02) fun t =>
      t.readByte 0x0203 == 0x0F && t.p == 0x34 := by decide

/-- V22. -/
theorem test_stx_zero_page_y_wraps :
    after (code 0x0600 [0x96, 0xFF] |>.withX 0x42 |>.withY 0x02) fun t =>
      t.readByte 0x0001 == 0x42 := by decide

/-- V22. -/
theorem test_sty_zero_page_x_wraps :
    after (code 0x0600 [0x94, 0x80] |>.withX 0x80 |>.withY 0x07) fun t =>
      t.readByte 0x0000 == 0x07 := by decide

/-- V23. -/
theorem test_tax :
    after (code 0x0600 [0xAA] |>.withA 0xFF) fun t =>
      t.x == 0xFF && t.p == 0xB4 := by decide

/-- V23. -/
theorem test_tay :
    after (code 0x0600 [0xA8] |>.withY 0x01) fun t =>
      t.y == 0x00 && t.p == 0x36 := by decide

/-- V23. -/
theorem test_txa :
    after (code 0x0600 [0x8A] |>.withX 0x80) fun t =>
      t.a == 0x80 && t.p == 0xB4 := by decide

/-- V23. -/
theorem test_tya :
    after (code 0x0600 [0x98] |>.withY 0x01) fun t =>
      t.a == 0x01 && t.p == 0x34 := by decide

/-- V23. -/
theorem test_tsx :
    after (code 0x0600 [0xBA] |>.withSp 0x03) fun t =>
      t.x == 0x03 && t.p == 0x34 := by decide

/-- V23. -/
theorem test_txs_keeps_flags :
    after (code 0x0600 [0x9A] |>.withSp 0x05 |>.withP 0x36) fun t =>
      t.sp == 0x00 && t.p == 0x36 := by decide

/-! ### Stack -/

/-- V24. -/
theorem test_pha_wraps :
    after (code 0x0600 [0x48] |>.withA 0x42 |>.withSp 0xFF) fun t =>
      t.readByte 0x01FF == 0x42 && t.sp == 0x00 := by decide

/-- V24. -/
theorem test_php_pushes_p_as_it_is :
    after (code 0x0600 [0x08] |>.withP 0x00 |>.withSp 0x02 |>.writeByte 0x0102 0xFF) fun t =>
      t.readByte 0x0102 == 0x00 && t.sp == 0x03 := by decide

/-- V24. -/
theorem test_pla :
    after (code 0x0600 [0x68] |>.withSp 0x01 |>.writeByte 0x0100 0x80) fun t =>
      t.a == 0x80 && t.p == 0xB4 && t.sp == 0x00 := by decide

/-- V24. -/
theorem test_pla_underflow_wraps :
    after (code 0x0600 [0x68] |>.writeByte 0x01FF 0x07) fun t =>
      t.a == 0x07 && t.sp == 0xFF := by decide

/-- V24. -/
theorem test_plp_replaces_all_bits :
    after (code 0x0600 [0x28] |>.withSp 0x01 |>.writeByte 0x0100 0xC3) fun t =>
      t.p == 0xC3 && t.sp == 0x00 := by decide

/-! ### Jumps and subroutines -/

/-- V25. -/
theorem test_jsr :
    after (code 0x0602 [0x20, 0x08, 0x06]) fun t =>
      t.readByte 0x0100 == 0x05 && t.readByte 0x0101 == 0x06 && t.sp == 0x02 && t.pc == 0x0608 := by decide

/-- V25. -/
theorem test_jsr_at_page_edge :
    after (code 0x0600 [0x20, 0x08, 0x06] |>.withSp 0xFF) fun t =>
      t.readByte 0x01FF == 0x03 && t.readByte 0x0200 == 0x06 && t.sp == 0x01 := by decide

/-- V26. -/
theorem test_rts_adds_nothing :
    after (code 0x0600 [0x60] |>.withSp 0x02 |>.writeByte 0x0100 0x05 |>.writeByte 0x0101 0x06) fun t =>
      t.pc == 0x0605 && t.sp == 0x00 := by decide

/-- V27. -/
theorem test_jmp_absolute :
    after (code 0x0600 [0x4C, 0x10, 0x06]) fun t =>
      t.pc == 0x0610 := by decide

/-- V27. -/
theorem test_jmp_indirect_crosses_page :
    after (code 0x0600 [0x6C, 0xFF, 0x12] |>.writeByte 0x12FF 0x78 |>.writeByte 0x1300 0x56 |>.writeByte 0x1200 0xAA) fun t =>
      t.pc == 0x5678 := by decide

/-! ### BRK, RTI, BIT, NOP -/

/-- V8. -/
theorem test_brk_frame :
    after (code 0x0700 [0x00] |>.withSp 0x05 |>.withP 0x01 |>.writeByte 0xFFFE 0x34 |>.writeByte 0xFFFF 0x12) fun t =>
      t.readByte 0x0105 == 0x01 && t.readByte 0x0106 == 0x07 && t.readByte 0x0107 == 0x01 && t.sp == 0x08 := by decide

/-- V8. -/
theorem test_brk_pc_and_status :
    after (code 0x0700 [0x00] |>.withSp 0x05 |>.withP 0x01 |>.writeByte 0xFFFE 0x34 |>.writeByte 0xFFFF 0x12) fun t =>
      t.pc == 0x1234 && t.p == 0x31 && t.run == .halted := by decide

/-- V29. -/
theorem test_rti :
    after (code 0x0600 [0x40] |>.withSp 0x03 |>.writeByte 0x0100 0x10 |>.writeByte 0x0101 0x06 |>.writeByte 0x0102 0xC3) fun t =>
      t.p == 0xC3 && t.pc == 0x0610 && t.sp == 0x00 := by decide

/-- V30 row 2. -/
theorem test_bit_flags_come_from_memory :
    after (code 0x0600 [0x24, 0x10] |>.writeByte 0x0010 0xC0) fun t =>
      t.a == 0x00 && t.p == 0xF6 := by decide

/-- V30 row 4. -/
theorem test_bit_absolute :
    after (code 0x0600 [0x2C, 0x10, 0x02] |>.withA 0xFF |>.writeByte 0x0210 0x80) fun t =>
      t.a == 0xFF && t.p == 0xB4 := by decide

/-- V31. -/
theorem test_nop :
    after (code 0x0600 [0xEA]) fun t =>
      t.pc == 0x0601 && t.p == 0x34 := by decide

/-! ### Well-formedness: an ill-formed pair for each check, refused -/

/-- R97: STA has no Immediate form. -/
theorem test_wf_refuses_sta_immediate :
    modeAllowed .sta (.immediate 0x00) = false ∧ wellFormed .sta (.immediate 0x00) = false := by decide

/-- R123, V33: LDA with no address. -/
theorem test_wf_refuses_lda_without_address :
    addressSupplied .lda .none = false ∧ wellFormed .lda .none = false := by decide

/-- R99, R123: NOP with an operand byte. -/
theorem test_wf_refuses_nop_with_operand :
    operandUsed .nop (.zeroPage 0x10) = false ∧ wellFormed .nop (.zeroPage 0x10) = false := by decide

/-- The checks accept what they should. -/
theorem test_wf_accepts : (Instr.staZp 0x10).wf = true ∧ Instr.aslAcc.wf = true ∧ Instr.nop.wf = true := by decide

/-! ### Decoding: words written out in bits from the rows of R100 (D18), one or more for each family -/

theorem test_decode_arithmetic :
    decode 0b01101001 0x50 0x00 = .ok (.adcImm 0x50) ∧ decode 0b11110001 0x40 0xFF = .ok (.sbcIndY 0x40) ∧
      decode 0b00111101 0x34 0x12 = .ok (.andAbsX 0x1234) ∧ decode 0b01000001 0x20 0x00 = .ok (.eorIndX 0x20) :=
  ⟨rfl, rfl, rfl, rfl⟩

theorem test_decode_shift :
    decode 0b00001010 0xFF 0xFF = .ok .aslAcc ∧ decode 0b01000110 0x10 0xFF = .ok (.lsrZp 0x10) ∧
      decode 0b01111110 0x00 0x02 = .ok (.rorAbsX 0x0200) := ⟨rfl, rfl, rfl⟩

theorem test_decode_compare :
    decode 0b11000000 0x04 0x00 = .ok (.cpyImm 0x04) ∧ decode 0b11001110 0x00 0x03 = .ok (.decAbs 0x0300) ∧
      decode 0b11101000 0x00 0x00 = .ok .inx := ⟨rfl, rfl, rfl⟩

theorem test_decode_branch : decode 0b11010000 0xFB 0x00 = .ok (.bne 0xFB) := rfl

theorem test_decode_flag : decode 0b11011000 0x00 0x00 = .ok .cld := rfl

theorem test_decode_load_store_transfer :
    decode 0b10111110 0x34 0x12 = .ok (.ldxAbsY 0x1234) ∧ decode 0b10010110 0xFF 0x00 = .ok (.stxZpY 0xFF) ∧
      decode 0b10011010 0x00 0x00 = .ok .txs := ⟨rfl, rfl, rfl⟩

theorem test_decode_stack : decode 0b01101000 0x00 0x00 = .ok .pla := rfl

theorem test_decode_jump :
    decode 0b00100000 0x08 0x06 = .ok (.jsr 0x0608) ∧ decode 0b01101100 0xFF 0x12 = .ok (.jmpInd 0x12FF) := ⟨rfl, rfl⟩

theorem test_decode_interrupt_misc :
    decode 0b00000000 0xFF 0xFF = .ok .brk ∧ decode 0b00101100 0x10 0x02 = .ok (.bitAbs 0x0210) ∧
      decode 0b11101010 0x00 0x00 = .ok .nop := ⟨rfl, rfl, rfl⟩

/-- R102: undefined codes of V32. -/
theorem test_decode_refuses :
    decode 0xFF 0x00 0x00 = .error (.undefinedCode 0xFF) ∧ decode 0x9C 0x00 0x00 = .error (.undefinedCode 0x9C) :=
  ⟨rfl, rfl⟩

/-- Each row's bits, followed by 0x34 and 0x12, decode to the row's instruction. -/
def rowsDecode (rows : List (Nat × Instr)) : Bool :=
  rows.all fun row => decodeTableWord 24 (0x123400 + row.1) == some row.2

/-- Codes 0x00 to 0x21. -/
theorem test_decode_rows_1 :
    rowsDecode
      [ (0b00000000, .brk), (0b00000001, .oraIndX 0x34), (0b00000101, .oraZp 0x34),
        (0b00000110, .aslZp 0x34), (0b00001000, .php), (0b00001001, .oraImm 0x34), (0b00001010, .aslAcc),
        (0b00001101, .oraAbs 0x1234), (0b00001110, .aslAbs 0x1234), (0b00010000, .bpl 0x34),
        (0b00010001, .oraIndY 0x34), (0b00010101, .oraZpX 0x34), (0b00010110, .aslZpX 0x34),
        (0b00011000, .clc), (0b00011001, .oraAbsY 0x1234), (0b00011101, .oraAbsX 0x1234),
        (0b00011110, .aslAbsX 0x1234), (0b00100000, .jsr 0x1234), (0b00100001, .andIndX 0x34) ] = true := by decide

/-- Codes 0x24 to 0x41. -/
theorem test_decode_rows_2 :
    rowsDecode
      [ (0b00100100, .bitZp 0x34), (0b00100101, .andZp 0x34), (0b00100110, .rolZp 0x34), (0b00101000, .plp),
        (0b00101001, .andImm 0x34), (0b00101010, .rolAcc), (0b00101100, .bitAbs 0x1234),
        (0b00101101, .andAbs 0x1234), (0b00101110, .rolAbs 0x1234), (0b00110000, .bmi 0x34),
        (0b00110001, .andIndY 0x34), (0b00110101, .andZpX 0x34), (0b00110110, .rolZpX 0x34),
        (0b00111000, .sec), (0b00111001, .andAbsY 0x1234), (0b00111101, .andAbsX 0x1234),
        (0b00111110, .rolAbsX 0x1234), (0b01000000, .rti), (0b01000001, .eorIndX 0x34) ] = true := by decide

/-- Codes 0x45 to 0x65. -/
theorem test_decode_rows_3 :
    rowsDecode
      [ (0b01000101, .eorZp 0x34), (0b01000110, .lsrZp 0x34), (0b01001000, .pha), (0b01001001, .eorImm 0x34),
        (0b01001010, .lsrAcc), (0b01001100, .jmpAbs 0x1234), (0b01001101, .eorAbs 0x1234),
        (0b01001110, .lsrAbs 0x1234), (0b01010000, .bvc 0x34), (0b01010001, .eorIndY 0x34),
        (0b01010101, .eorZpX 0x34), (0b01010110, .lsrZpX 0x34), (0b01011000, .cli),
        (0b01011001, .eorAbsY 0x1234), (0b01011101, .eorAbsX 0x1234), (0b01011110, .lsrAbsX 0x1234),
        (0b01100000, .rts), (0b01100001, .adcIndX 0x34), (0b01100101, .adcZp 0x34) ] = true := by decide

/-- Codes 0x66 to 0x86. -/
theorem test_decode_rows_4 :
    rowsDecode
      [ (0b01100110, .rorZp 0x34), (0b01101000, .pla), (0b01101001, .adcImm 0x34), (0b01101010, .rorAcc),
        (0b01101100, .jmpInd 0x1234), (0b01101101, .adcAbs 0x1234), (0b01101110, .rorAbs 0x1234),
        (0b01110000, .bvs 0x34), (0b01110001, .adcIndY 0x34), (0b01110101, .adcZpX 0x34),
        (0b01110110, .rorZpX 0x34), (0b01111000, .sei), (0b01111001, .adcAbsY 0x1234),
        (0b01111101, .adcAbsX 0x1234), (0b01111110, .rorAbsX 0x1234), (0b10000001, .staIndX 0x34),
        (0b10000100, .styZp 0x34), (0b10000101, .staZp 0x34), (0b10000110, .stxZp 0x34) ] = true := by decide

/-- Codes 0x88 to 0xA5. -/
theorem test_decode_rows_5 :
    rowsDecode
      [ (0b10001000, .dey), (0b10001010, .txa), (0b10001100, .styAbs 0x1234), (0b10001101, .staAbs 0x1234),
        (0b10001110, .stxAbs 0x1234), (0b10010000, .bcc 0x34), (0b10010001, .staIndY 0x34),
        (0b10010100, .styZpX 0x34), (0b10010101, .staZpX 0x34), (0b10010110, .stxZpY 0x34),
        (0b10011000, .tya), (0b10011001, .staAbsY 0x1234), (0b10011010, .txs), (0b10011101, .staAbsX 0x1234),
        (0b10100000, .ldyImm 0x34), (0b10100001, .ldaIndX 0x34), (0b10100010, .ldxImm 0x34),
        (0b10100100, .ldyZp 0x34), (0b10100101, .ldaZp 0x34) ] = true := by decide

/-- Codes 0xA6 to 0xC0. -/
theorem test_decode_rows_6 :
    rowsDecode
      [ (0b10100110, .ldxZp 0x34), (0b10101000, .tay), (0b10101001, .ldaImm 0x34), (0b10101010, .tax),
        (0b10101100, .ldyAbs 0x1234), (0b10101101, .ldaAbs 0x1234), (0b10101110, .ldxAbs 0x1234),
        (0b10110000, .bcs 0x34), (0b10110001, .ldaIndY 0x34), (0b10110100, .ldyZpX 0x34),
        (0b10110101, .ldaZpX 0x34), (0b10110110, .ldxZpY 0x34), (0b10111000, .clv),
        (0b10111001, .ldaAbsY 0x1234), (0b10111010, .tsx), (0b10111100, .ldyAbsX 0x1234),
        (0b10111101, .ldaAbsX 0x1234), (0b10111110, .ldxAbsY 0x1234), (0b11000000, .cpyImm 0x34) ] = true := by decide

/-- Codes 0xC1 to 0xE0. -/
theorem test_decode_rows_7 :
    rowsDecode
      [ (0b11000001, .cmpIndX 0x34), (0b11000100, .cpyZp 0x34), (0b11000101, .cmpZp 0x34),
        (0b11000110, .decZp 0x34), (0b11001000, .iny), (0b11001001, .cmpImm 0x34), (0b11001010, .dex),
        (0b11001100, .cpyAbs 0x1234), (0b11001101, .cmpAbs 0x1234), (0b11001110, .decAbs 0x1234),
        (0b11010000, .bne 0x34), (0b11010001, .cmpIndY 0x34), (0b11010101, .cmpZpX 0x34),
        (0b11010110, .decZpX 0x34), (0b11011000, .cld), (0b11011001, .cmpAbsY 0x1234),
        (0b11011101, .cmpAbsX 0x1234), (0b11011110, .decAbsX 0x1234), (0b11100000, .cpxImm 0x34) ] = true := by decide

/-- Codes 0xE1 to 0xFE. -/
theorem test_decode_rows_8 :
    rowsDecode
      [ (0b11100001, .sbcIndX 0x34), (0b11100100, .cpxZp 0x34), (0b11100101, .sbcZp 0x34),
        (0b11100110, .incZp 0x34), (0b11101000, .inx), (0b11101001, .sbcImm 0x34), (0b11101010, .nop),
        (0b11101100, .cpxAbs 0x1234), (0b11101101, .sbcAbs 0x1234), (0b11101110, .incAbs 0x1234),
        (0b11110000, .beq 0x34), (0b11110001, .sbcIndY 0x34), (0b11110101, .sbcZpX 0x34),
        (0b11110110, .incZpX 0x34), (0b11111000, .sed), (0b11111001, .sbcAbsY 0x1234),
        (0b11111101, .sbcAbsX 0x1234), (0b11111110, .incAbsX 0x1234) ] = true := by decide

/-- Table words: bits count on from the first byte; a row's operand bits that are not given are 0. -/
theorem test_decodeTableWord :
    decodeTableWord 24 0x02006E = some (.rorAbs 0x0200) ∧ decodeTableWord 8 0x6E = some (.rorAbs 0x0000) ∧
      decodeTableWord 8 0x02 = none := by decide

/-- The advisory cycle column of R100. -/
theorem test_advisory_cycles :
    advisoryCycles 0x00 = some 7 ∧ advisoryCycles 0xFE = some 7 ∧ advisoryCycles 0x24 = some 3 ∧
      advisoryCycles 0x02 = none := ⟨rfl, rfl, rfl, rfl⟩

/-! ### Addressing modes (V34), resolved from memory -/

/-- The address the instruction at pc resolves to. -/
def resolvedAt (s : State) : Option Addr :=
  match s.fetch with
  | .ok i => i.ea s
  | .error _ => none

theorem test_ea_one_byte_modes :
    resolvedAt (code 0x0600 [0xA9, 0x42]) = some 0x0601 ∧ resolvedAt (code 0x0600 [0xA5, 0x80]) = some 0x0080 ∧
      resolvedAt (code 0x0600 [0xB5, 0xFF] |>.withX 0x01) = some 0x0000 ∧
      resolvedAt (code 0x0600 [0xB6, 0xF0] |>.withY 0x20) = some 0x0010 := by decide

theorem test_ea_absolute_modes :
    resolvedAt (code 0x0600 [0xAD, 0x34, 0x12]) = some 0x1234 ∧
      resolvedAt (code 0x0600 [0xBD, 0xFF, 0xFF] |>.withX 0x02) = some 0x0001 ∧
      resolvedAt (code 0x0600 [0xB9, 0x00, 0x02] |>.withY 0x04) = some 0x0204 := by decide

theorem test_ea_pointer_modes :
    resolvedAt (code 0x0600 [0x6C, 0xFF, 0x12] |>.writeByte 0x12FF 0x78 |>.writeByte 0x1300 0x56) = some 0x5678 ∧
      resolvedAt (code 0x0600 [0xA1, 0xFE] |>.withX 0x01 |>.writeByte 0x0100 0x03) = some 0x0300 ∧
      resolvedAt (code 0x0600 [0xB1, 0x40] |>.withY 0x01 |>.writeByte 0x0040 0xFF |>.writeByte 0x0041 0xFF) =
        some 0x0000 := by decide

theorem test_ea_relative_and_none :
    resolvedAt (code 0x0608 [0xD0, 0xFB]) = some 0x0605 ∧ resolvedAt (code 0x0600 [0xEA]) = none := by decide

/-! ### Faults, run states, host operations -/

/-- V32. -/
theorem test_undefined_code :
    after (code 0x0600 [0x02]) fun t =>
      t.run == .faulted (.unrecognizedOpcode 0x02 0x0600) && t.pc == 0x0601 && t.p == 0x34 := by decide

/-- R251, R253: an address-needing mnemonic run with no address. -/
theorem test_missing_operand :
    (withByte .lda .none semLda (code 0x0600 [])) =
      .next { code 0x0600 [] with pc := 0x0601, run := .faulted (.missingOperand .lda 0x0600) } := rfl

/-- R40: no step after the end of a run (log 3 for what is answered). -/
theorem test_no_step_after_the_end :
    step (State.reset.withRun .halted) = .refused .halted ∧
      step (State.reset.withRun (.faulted (.unrecognizedOpcode 0x02 0x0600))) =
        .fault (.unrecognizedOpcode 0x02 0x0600) := ⟨rfl, rfl⟩

/-- V35, R288: reset after new, then run: one BRK. -/
theorem test_reset_then_run :
    State.reset = newCore.hostReset ∧
      State.hostRun 9 State.reset =
        { State.reset with mem := [(0x0100, 0x01), (0x0102, 0x34)], sp := 0x03, pc := 0x0000, run := .halted } := by
  decide

/-- V35: run after new with no reset. -/
theorem test_run_without_reset : (State.hostRun 9 newCore).p = 0x30 ∧ (State.hostRun 9 newCore).readByte 0x0102 = 0x00 := by
  decide

/-- V36, with the origin as an argument. -/
theorem test_load :
    (newCore.loadAt 0x8000 [0xEA, 0x00]).mem = [(0x8000, 0xEA), (0xFFFD, 0x80)] ∧
      (newCore.loadAt 0xFFFB [1, 2, 3, 4, 5]).mem =
        [(0xFFFB, 1), (0xFFFC, 0xFB), (0xFFFD, 0xFF), (0xFFFE, 4), (0xFFFF, 5)] := by decide

/-- V38: a fuel cut leaves the run Running. -/
theorem test_fuel_cut :
    (State.hostRun 3 (code 0x0600 [0x4C, 0x00, 0x06])).run = .running ∧
      (State.hostRun 3 (code 0x0600 [0x4C, 0x00, 0x06])).pc = 0x0600 := by decide

/-- The host's question: the next step runs the word that withFetchWord places. -/
theorem test_withFetchWord :
    Sys2Proof.core.step (State.withFetchWord Sys2Proof.core.reset 16 0x05A9) =
      exec (.ldaImm 0x05) (State.reset.withFetchWord 16 0x05A9) := rfl

/-- Writing a blank byte unlists it, so that equal memories are equal data. -/
theorem test_memory_is_canonical :
    ((State.reset.writeByte 0x0300 0x42).writeByte 0x0300 0x00).mem = [] ∧
      ((State.reset.writeByte 0xFFFF 1).writeByte 0x0000 2).mem = [(0x0000, 2), (0xFFFF, 1)] := by decide

/-! ### Witnesses: for every statement with hypotheses, values that meet them together -/

/-- The answer is a next state, spelled out. -/
abbrev completes (r : Result) (s : State) : Prop := r = .next (next r s)

theorem witness_FlagSetterWritesOneFlag : Flag.n ≠ Flag.c := by decide

theorem witness_MemoryReadsBackWhatWasWritten :
    (0x0001 : Addr) ≠ 0xFFFF ∧ (0x0001 : Addr) ≠ 0xFFFF + 1 ∧ (0xFFFF : Addr) + 1 = 0x0000 := by decide

theorem witness_WordPushAndPopCrossThePage : (State.reset.withSp 0xFF).sp = 0xFF := by decide

/-- One instruction for each mode of the statement, Relative and Absolute at the top of memory. -/
theorem witness_DirectModesResolve :
    ((code 0xFFFF [0xA9, 0x42]).fetch = .ok (.ldaImm 0x42) ∧ (Instr.ldaImm 0x42).operand.mode = .immediate) ∧
    ((code 0x0600 [0xA5, 0x80]).fetch = .ok (.ldaZp 0x80) ∧ (Instr.ldaZp 0x80).operand.mode = .zeroPage) ∧
    ((code 0x0600 [0xB5, 0xFF] |>.withX 0x01).fetch = .ok (.ldaZpX 0xFF) ∧
      (Instr.ldaZpX 0xFF).operand.mode = .zeroPageX) ∧
    ((code 0x0600 [0x96, 0xFF] |>.withY 0x02).fetch = .ok (.stxZpY 0xFF) ∧
      (Instr.stxZpY 0xFF).operand.mode = .zeroPageY) ∧
    ((code 0xFFFE [0x4C, 0x34, 0x12]).fetch = .ok (.jmpAbs 0x1234) ∧ (Instr.jmpAbs 0x1234).operand.mode = .absolute) ∧
    ((code 0x0600 [0xBD, 0xFF, 0xFF] |>.withX 0x02).fetch = .ok (.ldaAbsX 0xFFFF) ∧
      (Instr.ldaAbsX 0xFFFF).operand.mode = .absoluteX) ∧
    ((code 0x0600 [0xB9, 0xFF, 0xFF] |>.withY 0xFF).fetch = .ok (.ldaAbsY 0xFFFF) ∧
      (Instr.ldaAbsY 0xFFFF).operand.mode = .absoluteY) ∧
    ((code 0xFFFE [0x30, 0x80]).fetch = .ok (.bmi 0x80) ∧ (Instr.bmi 0x80).operand.mode = .relative) ∧
    ((code 0x0600 [0x0A]).fetch = .ok .aslAcc ∧ Instr.aslAcc.operand.mode = .noneAddressing) :=
  ⟨⟨rfl, rfl⟩, ⟨rfl, rfl⟩, ⟨rfl, rfl⟩, ⟨rfl, rfl⟩, ⟨rfl, rfl⟩, ⟨rfl, rfl⟩, ⟨rfl, rfl⟩, ⟨rfl, rfl⟩, ⟨rfl, rfl⟩⟩

/-- Pointers whose high byte lies past the page or past 0xFFFF. -/
theorem witness_PointerModesResolve :
    ((code 0x0600 [0x6C, 0xFF, 0xFF]).fetch = .ok (.jmpInd 0xFFFF) ∧ (Instr.jmpInd 0xFFFF).operand.mode = .indirect) ∧
    ((code 0x0600 [0xA1, 0xFE] |>.withX 0x01).fetch = .ok (.ldaIndX 0xFE) ∧
      (Instr.ldaIndX 0xFE).operand.mode = .indirectX) ∧
    ((code 0x0600 [0xB1, 0xFF] |>.withY 0xFF).fetch = .ok (.ldaIndY 0xFF) ∧
      (Instr.ldaIndY 0xFF).operand.mode = .indirectY) :=
  ⟨⟨rfl, rfl⟩, ⟨rfl, rfl⟩, ⟨rfl, rfl⟩⟩

theorem witness_EveryNeededAddressResolves :
    (Instr.jmpInd 0xFFFF).mnemonic.needs = .address ∧ Instr.nop.mnemonic.needs = .nothing := by decide

theorem witness_EncodeOfDecode : decode 0x6E 0x00 0x02 = .ok (.rorAbs 0x0200) := rfl

theorem witness_UndefinedCodesAreRefused :
    (0x02 : Byte) ∈ undefinedCodes ∧ (0xFF : Byte) ∈ undefinedCodes ∧ (0x00 : Byte) ∉ undefinedCodes := by decide

/-- An instruction that wraps around the top of memory. -/
theorem witness_StepRunsTheDecodedInstruction :
    let s := code 0xFFFF [0xAD, 0x34, 0x12]
    s.run = .running ∧ decode (s.readByte s.pc) (s.readByte (s.pc + 1)) (s.readByte (s.pc + 2)) = .ok (.ldaAbs 0x1234) :=
  ⟨rfl, rfl⟩

theorem witness_UndefinedCodeFaultsTheRun :
    (code 0xFFFF [0x02]).run = .running ∧ (code 0xFFFF [0x02]).readByte (code 0xFFFF [0x02]).pc ∈ undefinedCodes := by
  decide

theorem witness_NoStepUnlessRunning :
    (State.reset.withRun .halted).run = .halted ∧
      (State.reset.withRun (.faulted (.missingOperand .lda 0x0600))).run = .faulted (.missingOperand .lda 0x0600) ∧
      completes (step State.reset) State.reset := ⟨rfl, rfl, rfl⟩

/-- The three ends of a step all happen. -/
theorem witness_EveryRunningStepHasANextState :
    State.reset.run = .running ∧ (next (step (code 0x0600 [0xEA])) State.reset).run = .running ∧
      (next (step State.reset) State.reset).run = .halted ∧
      (next (step (code 0x0600 [0x02])) State.reset).run = .faulted (.unrecognizedOpcode 0x02 0x0600) := by decide

theorem witness_OnlyBrkHalts :
    completes (exec .brk State.reset) State.reset ∧ completes (exec .nop State.reset) State.reset ∧ Instr.nop ≠ .brk :=
  ⟨rfl, rfl, by decide⟩

/-- A state with memory listed, and a step that stores. -/
theorem witness_StepKeepsMemoryCanonical :
    State.Inv (code 0x0600 [0x85, 0x10]) ∧ completes (step (code 0x0600 [0x85, 0x10])) State.reset := ⟨rfl, rfl⟩

theorem witness_PlacedInstructionRunsNext : decodeTableWord 24 0x02006E = some (.rorAbs 0x0200) := by decide

/-- A program that wraps past 0xFFFF over the vector: bytes 0 and 4 stay, bytes 1 and 2 fall on the vector, 0x0300 is
outside. -/
theorem witness_LoadCopiesTheProgram :
    let origin : Addr := 0xFFFB
    let bytes : List Byte := [1, 2, 3, 4, 5, 6]
    (∀ k ∈ [0, 3, 4, 5], k < bytes.length ∧
      (∀ j ∈ List.range 6, k < j → origin + BitVec.ofNat 16 j ≠ origin + BitVec.ofNat 16 k) ∧
      origin + BitVec.ofNat 16 k ≠ 0xFFFC ∧ origin + BitVec.ofNat 16 k ≠ 0xFFFD) ∧
    (0x0300 : Addr) ≠ 0xFFFC ∧ (0x0300 : Addr) ≠ 0xFFFD ∧
      (∀ k ∈ List.range 6, origin + BitVec.ofNat 16 k ≠ 0x0300) := by decide

theorem witness_EndedRunStaysEnded :
    (State.runSteps 1 State.reset).run ≠ .running ∧ (State.runSteps 0 State.reset).run = .running ∧
      completes (step (State.runSteps 0 State.reset)) State.reset := ⟨by decide, rfl, rfl⟩

theorem witness_AdcAddsWithCarry :
    (Instr.adcImm 0x50).mnemonic = .adc ∧ (Instr.adcImm 0x50).readOperand State.reset = some 0x50 ∧
      (Instr.adcIndY 0xFF).mnemonic = .adc ∧ (Instr.adcIndY 0xFF).readOperand State.reset = some 0x00 := by decide

theorem witness_SbcSubtractsWithBorrow :
    (Instr.sbcImm 0xB0).mnemonic = .sbc ∧ (Instr.sbcImm 0xB0).readOperand State.reset = some 0xB0 := by decide

theorem witness_LogicCombinesIntoA :
    ((Instr.andImm 0x3C).readOperand State.reset = some 0x3C ∧ (Instr.andImm 0x3C).mnemonic = .and) ∧
    ((Instr.oraImm 0x80).readOperand State.reset = some 0x80 ∧ (Instr.oraImm 0x80).mnemonic = .ora) ∧
    ((Instr.eorImm 0xFF).readOperand State.reset = some 0xFF ∧ (Instr.eorImm 0xFF).mnemonic = .eor) := by decide

theorem witness_ShiftsAndRotates :
    (Instr.aslAcc.mnemonic = .asl ∧ Instr.aslAcc.ea State.reset = none) ∧
    (Instr.lsrAcc.mnemonic = .lsr ∧ Instr.lsrAcc.ea State.reset = none) ∧
    (Instr.rolAcc.mnemonic = .rol ∧ Instr.rolAcc.ea State.reset = none) ∧
    (Instr.rorAcc.mnemonic = .ror ∧ Instr.rorAcc.ea State.reset = none) ∧
    ((Instr.aslZpX 0xFF).mnemonic = .asl ∧ (Instr.aslZpX 0xFF).ea (State.reset.withX 0x01) = some 0x0000) ∧
    ((Instr.lsrZp 0x10).mnemonic = .lsr ∧ (Instr.lsrZp 0x10).ea State.reset = some 0x0010) ∧
    ((Instr.rolAbs 0xFFFF).mnemonic = .rol ∧ (Instr.rolAbs 0xFFFF).ea State.reset = some 0xFFFF) ∧
    ((Instr.rorAbsX 0xFFFF).mnemonic = .ror ∧ (Instr.rorAbsX 0xFFFF).ea (State.reset.withX 0x02) = some 0x0001) := by
  decide

theorem witness_ComparesSetFlagsOnly :
    ((Instr.cmpImm 0x10).readOperand State.reset = some 0x10 ∧ (Instr.cmpImm 0x10).mnemonic = .cmp) ∧
    ((Instr.cpxImm 0x05).readOperand State.reset = some 0x05 ∧ (Instr.cpxImm 0x05).mnemonic = .cpx) ∧
    ((Instr.cpyZp 0x10).readOperand State.reset = some 0x00 ∧ (Instr.cpyZp 0x10).mnemonic = .cpy) := by decide

theorem witness_IncAndDecWriteMemory :
    ((Instr.incZpX 0xFF).ea (State.reset.withX 0x01) = some 0x0000 ∧ (Instr.incZpX 0xFF).mnemonic = .inc) ∧
    ((Instr.decAbs 0xFFFF).ea State.reset = some 0xFFFF ∧ (Instr.decAbs 0xFFFF).mnemonic = .dec) := by decide

theorem witness_LoadsSetTheirRegister :
    ((Instr.ldaImm 0x05).readOperand State.reset = some 0x05 ∧ (Instr.ldaImm 0x05).mnemonic = .lda) ∧
    ((Instr.ldxZpY 0xFF).readOperand (State.reset.withY 0x02) = some 0x00 ∧ (Instr.ldxZpY 0xFF).mnemonic = .ldx) ∧
    ((Instr.ldyAbsX 0xFFFF).readOperand (State.reset.withX 0x02) = some 0x00 ∧
      (Instr.ldyAbsX 0xFFFF).mnemonic = .ldy) := by decide

theorem witness_StoresWriteOneByte :
    ((Instr.staIndY 0xF0).mnemonic = .sta ∧ (Instr.staIndY 0xF0).ea (State.reset.withY 0x03) = some 0x0003) ∧
    ((Instr.stxZpY 0xFF).mnemonic = .stx ∧ (Instr.stxZpY 0xFF).ea (State.reset.withY 0x02) = some 0x0001) ∧
    ((Instr.styZpX 0x80).mnemonic = .sty ∧ (Instr.styZpX 0x80).ea (State.reset.withX 0x80) = some 0x0000) := by decide

theorem witness_BitTestsWithoutWritingA :
    (Instr.bitZp 0x10).mnemonic = .bit ∧ (Instr.bitZp 0x10).readOperand (State.reset.writeByte 0x0010 0xC0) = some 0xC0 ∧
      (Instr.bitAbs 0xFFFF).mnemonic = .bit ∧ (Instr.bitAbs 0xFFFF).readOperand State.reset = some 0x00 := by decide

/-- At the page edge. -/
theorem witness_RtsReturnsAfterJsr :
    completes (exec (.jsr 0x0608) (State.reset.withSp 0xFF)) (State.reset.withSp 0xFF) := rfl

theorem witness_RtiUndoesBrk : completes (exec .brk (State.reset.withSp 0xFF)) (State.reset.withSp 0xFF) := rfl

theorem witness_FlagWritersAndReaders :
    completes (exec (.ldaImm 0x80) State.reset) State.reset ∧ Flag.c ∉ flagsWritten (Instr.ldaImm 0x80).mnemonic ∧
      Flag.c ∉ flagsRead (Instr.ldaImm 0x80).mnemonic ∧ Flag.z ∉ flagsRead (Instr.ldaImm 0x80).mnemonic :=
  ⟨rfl, by decide, by decide, by decide⟩

theorem witness_RegisterWritersAndReaders :
    completes (exec (.stxZpY 0xFF) State.reset) State.reset ∧ writesA (.stxZpY 0xFF) = false ∧
      writesX (.stxZpY 0xFF) = false ∧ writesY (.stxZpY 0xFF) = false ∧ readsA (.stxZpY 0xFF) = false ∧
      completes (exec .tax State.reset) State.reset ∧ readsX .tax = false ∧ writesX .tax = true ∧
      readsY .tax = false := ⟨rfl, rfl, rfl, rfl, rfl, rfl, rfl, rfl, rfl⟩

theorem witness_StackPointerWritersAndReaders :
    completes (exec .txs State.reset) State.reset ∧ usesStack .txs = false ∧ Instr.txs ≠ .tsx ∧
      completes (exec .nop State.reset) State.reset ∧ usesStack .nop = false ∧ Instr.nop ≠ .txs :=
  ⟨rfl, rfl, by decide, rfl, rfl, by decide⟩

theorem witness_PcMovesPastTheInstruction :
    completes (exec (.adcAbsX 0xFFFF) (State.reset.withPc 0xFFFE)) State.reset ∧ writesPc (.adcAbsX 0xFFFF) = false :=
  ⟨rfl, rfl⟩

/-- `LDA $10` at 0x0600 and `LDA $0010` at 0x05FF. -/
theorem witness_ModeOnlyDecidesTheAddress :
    let i := Instr.ldaZp 0x10
    let j := Instr.ldaAbs 0x0010
    let s := State.reset.withPc 0x0600
    let u := State.reset.withPc 0x05FF
    i ≠ j ∧ i.mnemonic = j.mnemonic ∧ i.ea s = j.ea u ∧ i.readOperand s = j.readOperand u ∧
      s.afterFetch i.operand = u.afterFetch j.operand := by decide

theorem witness_MemoryChangesOnlyWhereStored :
    completes (exec .brk (State.reset.withSp 0xFF)) State.reset ∧ (0x0300 : Addr) ∉ storedAt .brk (State.reset.withSp 0xFF) ∧
      usesStack .brk = true ∧ (0x0200 : Addr) ∈ storedAt .brk (State.reset.withSp 0xFF) :=
  ⟨rfl, by decide, rfl, by decide⟩

end Sys2Proof.Tests
end

section
/-! PROOFS. The load origins (spec/00_scope.md R10, 92_eei_decisions.md D5). -/

namespace Sys2Proof

/-- The distance between the two origins does not wrap to zero: the gap stays below 65535. -/
theorem originDistance_ne_zero (gap : Fin 65535) : (1 + BitVec.ofNat 16 gap.val : Addr) ≠ 0 := by
  have hgap : gap.val < 65535 := gap.isLt
  bv_omega

theorem Config.loadOrigin_first_ne_second :
    Config.loadOrigin .first ≠ Config.loadOrigin .second := by
  intro h
  have hdist : Config.firstOrigin + (1 + BitVec.ofNat 16 Config.originGap.val) = Config.firstOrigin := by
    rw [← BitVec.add_assoc]
    exact h.symm
  exact originDistance_ne_zero Config.originGap (add_eq_left.mp hdist)

/-- Settles O26: of the four pairs of modes, only the two mixed ones need the origins apart. -/
theorem loadOriginsDiffer : Obligations.LoadOriginsDiffer := by
  intro m n h
  cases m <;> cases n
  case first.first => rfl
  case first.second => exact absurd h Config.loadOrigin_first_ne_second
  case second.first => exact absurd h.symm Config.loadOrigin_first_ne_second
  case second.second => rfl

end Sys2Proof
end

section
/-! PROOFS. Reading a flag after each of the flag helpers (spec/10_state.md R32 to R37), and the tier 1 statements of the
state: the setters, the step of an ended run, reset. -/

namespace Sys2Proof.Machine

theorem State.setFlag_flag (s : State) (f g : Flag) (on : Bool) :
    (s.setFlag f on).flag g = if g = f then on else s.flag g :=
  flagOf_putFlag s.p f g on

theorem State.setFlag_flag_same (s : State) (f : Flag) (on : Bool) : (s.setFlag f on).flag f = on := by
  simp [State.setFlag_flag]

theorem State.setFlag_flag_other (s : State) {f g : Flag} (on : Bool) (h : g ≠ f) :
    (s.setFlag f on).flag g = s.flag g := by
  simp [State.setFlag_flag, h]

theorem State.setZN_flag (s : State) (r : Byte) (g : Flag) :
    (s.setZN r).flag g = if g = .n then r.getLsbD 7 else if g = .z then r == 0 else s.flag g := by
  simp only [State.setZN, State.setN, State.setZ, State.setFlag_flag]

end Sys2Proof.Machine

namespace Sys2Proof

open Sys2Proof.Machine Sys2Proof.Claims

theorem keptBut_setFlag (s : State) (f : Flag) (on : Bool) : KeptBut [] [f] [] s (s.setFlag f on) where
  regs r _ := by cases r <;> rfl
  flags _ hg := State.setFlag_flag_other s on (by simpa using hg)
  memory _ _ := rfl
  run := rfl

theorem keptBut_setZN (s : State) (r : Byte) : KeptBut [] [.z, .n] [] s (s.setZN r) where
  regs r _ := by cases r <;> rfl
  flags g hg := by
    obtain ⟨hz, hn⟩ : g ≠ .z ∧ g ≠ .n := by simpa using hg
    rw [State.setZN_flag, if_neg hn, if_neg hz]
  memory _ _ := rfl
  run := rfl

theorem znFrom_setZN (s : State) (r : Byte) : ZNFrom (s.setZN r) r := by
  simp [ZNFrom, State.setZN_flag]

/-- Settles O1: `setFlag` is one `putFlag` on P, and a flag read after it is the new one exactly at that flag. -/
theorem flagSetterWritesOneFlag : Obligations.FlagSetterWritesOneFlag := by
  intro s f on
  exact ⟨s.setFlag_flag_same f on, fun _ hg => s.setFlag_flag_other on hg, rfl⟩

/-- Settles O2: every helper but `SetZN` is one `setFlag`, whose frame is that flag alone. -/
theorem flagHelpersSetTheirFlags : Obligations.FlagHelpersSetTheirFlags := by
  intro s v sum on
  refine ⟨⟨?_, keptBut_setFlag s .z _⟩, ⟨s.setFlag_flag_same .n _, keptBut_setFlag s .n _⟩,
    ⟨znFrom_setZN s v, keptBut_setZN s v⟩, ⟨?_, keptBut_setFlag s .c _⟩,
    ⟨s.setFlag_flag_same .v on, keptBut_setFlag s .v on⟩⟩
  · rw [State.setZ, State.setFlag_flag_same, beq_iff_eq]
  · rw [State.setCarrySum, State.setFlag_flag_same, decide_eq_true_iff]

/-- Settles O18: of the four ways a step can go, the two with a next state start in Running. -/
theorem noStepUnlessRunning : Obligations.NoStepUnlessRunning := by
  intro s
  refine ⟨fun h => ?_, fun f h => ?_, fun ⟨t, ht⟩ => ?_⟩
  · simp only [step, h]
  · simp only [step, h]
  · obtain ⟨_, hrun, _⟩ | ⟨_, hrun, _⟩ | ⟨_, hstep⟩ | ⟨_, _, hstep⟩ := step_cases s
    · exact hrun
    · exact hrun
    · simp [hstep] at ht
    · simp [hstep] at ht

/-- The status byte after reset has exactly I, B and B2 set (D2). -/
theorem flagOf_resetStatus (f : Flag) : flagOf 0x34 f = true ↔ f ∈ [Flag.i, .b, .b2] := by
  cases f <;> decide

/-- Settles O24: the reset values are those of `hostReset` and `newCore`; the flags are read off P = 0x34. -/
theorem resetSetsTheDefaults : Obligations.ResetSetsTheDefaults := by
  refine ⟨fun s => ?_, fun _ => rfl, rfl, rfl, rfl, rfl, rfl, rfl, rfl, rfl⟩
  exact ⟨rfl, rfl, rfl, rfl, rfl, flagOf_resetStatus, rfl, rfl, rfl⟩

end Sys2Proof
end

section
/-! PROOFS. Execution as one total function (spec/40_execution_core.md R121, R122): every instruction resolves its operand
and then runs its mnemonic's effect, and what resolution looks at in the state. -/

namespace Sys2Proof.Machine

theorem withByte_of_operand {m : Mnemonic} {op : Operand} (f : Byte → State → State) (s : State) (hop : op ≠ .none) :
    withByte m op f s = .next (f ((operandByte op (s.advancePc 1)).getD 0) (s.afterFetch op)) := by
  obtain ⟨byte, hbyte⟩ := Option.ne_none_iff_exists'.mp (operandByte_eq_none.not.mpr hop)
  rw [withByte_of_some hbyte, hbyte, Option.getD_some]

theorem withAddress_of_operand {m : Mnemonic} {op : Operand} (f : Addr → State → State) (s : State)
    (hop : op ≠ .none) :
    withAddress m op f s = .next (f ((effectiveAddress op (s.advancePc 1)).getD 0) (s.afterFetch op)) := by
  obtain ⟨ea, hea⟩ := Option.ne_none_iff_exists'.mp (effectiveAddress_eq_none.not.mpr hop)
  rw [withAddress_of_some hea, hea, Option.getD_some]

/-- What `Execute` does for a mnemonic, given the resolved address and the operand byte: one total function, where
`byMnemonic` also keeps the check for a missing operand. -/
def execute (m : Mnemonic) (ea : Option Addr) (byte : Byte) : State → State :=
  match m with
  | .adc => semAdc byte
  | .sbc => semSbc byte
  | .and => semAnd byte
  | .ora => semOra byte
  | .eor => semEor byte
  | .asl => semAsl (locOf ea)
  | .lsr => semLsr (locOf ea)
  | .rol => semRol (locOf ea)
  | .ror => semRor (locOf ea)
  | .cmp => semCmp byte
  | .cpx => semCpx byte
  | .cpy => semCpy byte
  | .inc => semInc (ea.getD 0)
  | .dec => semDec (ea.getD 0)
  | .inx => semInx
  | .iny => semIny
  | .dex => semDex
  | .dey => semDey
  | .bcc => semBcc (ea.getD 0)
  | .bcs => semBcs (ea.getD 0)
  | .beq => semBeq (ea.getD 0)
  | .bne => semBne (ea.getD 0)
  | .bmi => semBmi (ea.getD 0)
  | .bpl => semBpl (ea.getD 0)
  | .bvc => semBvc (ea.getD 0)
  | .bvs => semBvs (ea.getD 0)
  | .clc => semClc
  | .cld => semCld
  | .cli => semCli
  | .clv => semClv
  | .sec => semSec
  | .sed => semSed
  | .sei => semSei
  | .lda => semLda byte
  | .ldx => semLdx byte
  | .ldy => semLdy byte
  | .sta => semSta (ea.getD 0)
  | .stx => semStx (ea.getD 0)
  | .sty => semSty (ea.getD 0)
  | .tax => semTax
  | .tay => semTay
  | .txa => semTxa
  | .tya => semTya
  | .tsx => semTsx
  | .txs => semTxs
  | .pha => semPha
  | .php => semPhp
  | .pla => semPla
  | .plp => semPlp
  | .jsr => semJsr (ea.getD 0)
  | .rts => semRts
  | .jmp => semJmp (ea.getD 0)
  | .brk => semBrk
  | .rti => semRti
  | .bit => semBit byte
  | .nop => semNop

/-- The effect of the instruction `i` at pc of `s`, on the state at the start of `Execute`. -/
def effect (i : Instr) (s : State) : State → State :=
  execute i.mnemonic (i.ea s) ((i.readOperand s).getD 0)

/-- Every instruction completes: no mnemonic that needs an operand is ever without one. -/
theorem exec_eq_effect (i : Instr) (s : State) : exec i s = .next (effect i s (s.afterFetch i.operand)) := by
  obtain ⟨haddress, hnothing⟩ := operand_of_needs i
  rw [exec_eq]
  simp only [effect, Instr.ea, Instr.readOperand]
  generalize i.mnemonic = m at *
  cases m
  case adc | sbc | and | ora | eor | cmp | cpx | cpy | lda | ldx | ldy | bit =>
    exact withByte_of_operand _ s (haddress rfl)
  case inc | dec | bcc | bcs | beq | bne | bmi | bpl | bvc | bvs | sta | stx | sty | jsr | jmp =>
    exact withAddress_of_operand _ s (haddress rfl)
  case asl | lsr | rol | ror => rfl
  all_goals
    rw [hnothing rfl]
    rfl

/-- The address depends on pc, memory, and the index register of the mode. -/
theorem effectiveAddress_congr {op : Operand} {s t : State} (hpc : t.pc = s.pc) (hmem : t.mem = s.mem)
    (hx : op.mode ∈ [Mode.zeroPageX, .absoluteX, .indirectX] → t.x = s.x)
    (hy : op.mode ∈ [Mode.zeroPageY, .absoluteY, .indirectY] → t.y = s.y) :
    effectiveAddress op t = effectiveAddress op s := by
  have hword := State.readWord_congr hmem
  cases op with
  | zeroPageX | absoluteX | indirectX => simp [effectiveAddress, hx (by simp [Operand.mode]), hword]
  | zeroPageY | absoluteY | indirectY => simp [effectiveAddress, hy (by simp [Operand.mode]), hword]
  | _ => simp [effectiveAddress, hpc, hword]

/-- So does the operand byte. -/
theorem operandByte_congr {op : Operand} {s t : State} (hea : effectiveAddress op t = effectiveAddress op s)
    (hmem : t.mem = s.mem) : operandByte op t = operandByte op s := by
  have hbyte : t.readByte = s.readByte := funext (State.readByte_congr hmem)
  cases op <;> simp only [operandByte, hea, hbyte]

/-- The effect depends on pc, memory, and the index register of the addressing mode. -/
theorem effect_congr {i : Instr} {s t : State} (hpc : t.pc = s.pc) (hmem : t.mem = s.mem)
    (hx : i.operand.mode ∈ [Mode.zeroPageX, .absoluteX, .indirectX] → t.x = s.x)
    (hy : i.operand.mode ∈ [Mode.zeroPageY, .absoluteY, .indirectY] → t.y = s.y) :
    effect i t = effect i s := by
  have hea : i.ea t = i.ea s := effectiveAddress_congr (by simp [hpc]) hmem hx hy
  have hbyte : i.readOperand t = i.readOperand s := operandByte_congr hea hmem
  rw [effect, effect, hea, hbyte]

/-- Every next state is the effect on the fetched state. -/
theorem effect_of_exec {i : Instr} {s t : State} (h : exec i s = .next t) :
    effect i s (s.afterFetch i.operand) = t := by
  rw [exec_eq_effect] at h
  injection h

end Sys2Proof.Machine
end

section
/-! PROOFS. Which flags an instruction writes and reads (spec/10_state.md R38). Each flag computation is run on two states
side by side: the flags it writes come out alike, every other flag comes from the state it ran on. -/

namespace Sys2Proof.Machine

open Sys2Proof.Claims

@[simp] theorem State.withP_flag (s : State) (q : Byte) (g : Flag) : (s.withP q).flag g = flagOf q g := rfl

theorem State.setFlag_flag_pair (s t : State) (f g : Flag) (on : Bool) :
    (t.setFlag f on).flag g = if g ∈ [f] then (s.setFlag f on).flag g else t.flag g := by
  by_cases h : g = f <;> simp [State.setFlag_flag, h]

theorem State.setZN_flag_pair (s t : State) (r : Byte) (g : Flag) :
    (t.setZN r).flag g = if g ∈ [Flag.z, .n] then (s.setZN r).flag g else t.flag g := by
  cases g <;> simp [State.setZN_flag]

theorem State.setFlag_setZN_flag_pair (s t : State) (carry : Bool) (r : Byte) (g : Flag) :
    ((t.setFlag .c carry).setZN r).flag g =
      if g ∈ [Flag.c, .z, .n] then ((s.setFlag .c carry).setZN r).flag g else t.flag g := by
  cases g <;> simp [State.setZN_flag, State.setFlag_flag]

theorem State.addWithCarry_flag_pair (s : State) (q m : Byte) (hq : flagOf q .c = s.flag .c) (g : Flag) :
    ((s.withP q).addWithCarry m).flag g =
      if g ∈ [Flag.c, .z, .v, .n] then (s.addWithCarry m).flag g else flagOf q g := by
  have hc : (s.withP q).flag .c = s.flag .c := hq
  simp only [State.addWithCarry, State.setZN_flag, hc, State.setCarrySum, State.setOverflow]
  cases g
  all_goals simp [State.flag, flagOf_putFlag]

theorem State.branch_flag (s : State) (f g : Flag) (want : Bool) (ea : Addr) :
    (s.branch f want ea).flag g = s.flag g := by
  obtain ⟨_, h⟩ | ⟨_, h⟩ := s.branch_cases f want ea
  · rw [h]; rfl
  · rw [h]

theorem State.getLoc_withP (s : State) (q : Byte) (l : Loc) : (s.withP q).getLoc l = s.getLoc l := by
  cases l <;> rfl

theorem shiftLoc_flag_pair (l : Loc) (r : Byte) (carry : Bool) (s : State) (q : Byte) (g : Flag) :
    (shiftLoc l r carry (s.withP q)).flag g =
      if g ∈ [Flag.c, .z, .n] then (shiftLoc l r carry s).flag g else flagOf q g := by
  cases l <;> exact State.setFlag_setZN_flag_pair _ _ carry r g

/-- A status byte `q` that agrees with P on the flags the mnemonic reads gives the written flags the same values; the
other flags stay those of `q`. -/
theorem execute_flag {m : Mnemonic} {s : State} {q : Byte} (hq : ∀ f ∈ flagsRead m, flagOf q f = s.flag f)
    (ea : Option Addr) (byte : Byte) (g : Flag) :
    (execute m ea byte (s.withP q)).flag g =
      if g ∈ flagsWritten m then (execute m ea byte s).flag g else flagOf q g := by
  cases m
  case sta | stx | sty | txs | pha | php | jmp | jsr | rts | nop => rfl
  case bcc | bcs | beq | bne | bmi | bpl | bvc | bvs => exact State.branch_flag ..
  case plp | rti => cases g <;> rfl
  case clc | sec | cli | sei | cld | sed | clv => exact State.setFlag_flag_pair s _ _ g _
  case and | ora | eor | inc | dec | inx | iny | dex | dey | lda | ldx | ldy | tax | tay | txa | tya | tsx | pla =>
    exact State.setZN_flag_pair _ _ _ g
  case cmp | cpx | cpy => exact State.setFlag_setZN_flag_pair s _ _ _ g
  case adc | sbc => exact s.addWithCarry_flag_pair q _ (hq .c (by simp [flagsRead])) g
  case asl | lsr =>
    simp only [execute, semAsl, semLsr, State.getLoc_withP]
    exact shiftLoc_flag_pair ..
  case rol | ror =>
    have hc : (s.withP q).flag .c = s.flag .c := hq .c (by simp [flagsRead])
    simp only [execute, semRol, semRor, State.getLoc_withP, hc]
    exact shiftLoc_flag_pair ..
  case bit => cases g <;> simp [execute, semBit, State.setFlag_flag, flagsWritten]
  case brk => cases g <;> simp [execute, semBrk, State.flag, flagOf_putFlag, flagsWritten]

/-- A branch looks at P only through its own flag. -/
theorem State.branch_withP (s : State) {q : Byte} {f : Flag} {want : Bool} {ea : Addr} (hf : flagOf q f = s.flag f) :
    (s.withP q).branch f want ea = (s.branch f want ea).withP ((s.withP q).branch f want ea).p := by
  have hflag : (s.withP q).flag f = s.flag f := hf
  simp only [State.branch, hflag]
  split <;> rfl

/-- P reaches the rest of the state only through the flags the mnemonic reads. -/
theorem execute_withP {m : Mnemonic} {s : State} {q : Byte} (hq : ∀ f ∈ flagsRead m, flagOf q f = s.flag f)
    (ea : Option Addr) (byte : Byte) :
    execute m ea byte (s.withP q) = (execute m ea byte s).withP (execute m ea byte (s.withP q)).p := by
  cases m
  case bcc | bcs | beq | bne | bmi | bpl | bvc | bvs =>
    refine s.branch_withP ?_
    exact hq _ (List.mem_singleton_self _)
  case php | brk =>
    have hp : q = s.p := status_ext fun f => hq f (by cases f <;> simp [flagsRead])
    subst hp
    rfl
  case adc | sbc =>
    have hc : (s.withP q).flag .c = s.flag .c := hq .c (by simp [flagsRead])
    simp only [execute, semAdc, semSbc, State.addWithCarry, hc]
    rfl
  case rol | ror =>
    have hc : (s.withP q).flag .c = s.flag .c := hq .c (by simp [flagsRead])
    simp only [execute, semRol, semRor, hc]
    cases ea <;> rfl
  case asl | lsr => cases ea <;> rfl
  all_goals rfl

/-- A flag the mnemonic does not write is as before. -/
theorem execute_flag_other {m : Mnemonic} {g : Flag} (hg : g ∉ flagsWritten m) (ea : Option Addr) (byte : Byte)
    (s : State) : (execute m ea byte s).flag g = s.flag g :=
  (execute_flag (q := s.p) (fun _ _ => rfl) ea byte g).trans (if_neg hg)

/-- How a flag `f` set in `p₀` beforehand shows in the status afterwards: `p₁` is what became of `p₀` and `p₂` what
became of `p₀` with `f` set, where the flags `written` got the same values and the others stayed. -/
theorem status_after_putFlag {written : List Flag} {p₀ p₁ p₂ : Byte} {f : Flag} {on : Bool}
    (h₁ : ∀ g, g ∉ written → flagOf p₁ g = flagOf p₀ g)
    (h₂ : ∀ g, flagOf p₂ g = if g ∈ written then flagOf p₁ g else flagOf (putFlag p₀ f on) g) :
    p₂ = if f ∈ written then p₁ else putFlag p₁ f on := by
  by_cases hf : f ∈ written
  · rw [if_pos hf]
    apply status_ext
    intro g
    rw [h₂]
    split
    · rfl
    · next hg => rw [h₁ g hg, flagOf_putFlag, if_neg (ne_of_mem_of_not_mem hf hg).symm]
  · rw [if_neg hf]
    apply status_ext
    intro g
    rw [h₂, flagOf_putFlag, flagOf_putFlag]
    split
    · next hg => rw [if_neg (ne_of_mem_of_not_mem hg hf)]
    · next hg => rw [h₁ g hg]

/-- R38 for one mnemonic's effect: an unread flag set beforehand shows only in that flag, and not where it is written. -/
theorem execute_setFlag {m : Mnemonic} {f : Flag} (hf : f ∉ flagsRead m) (ea : Option Addr) (byte : Byte) (s : State)
    (on : Bool) :
    execute m ea byte (s.setFlag f on) =
      if f ∈ flagsWritten m then execute m ea byte s else (execute m ea byte s).setFlag f on := by
  have hq : ∀ g ∈ flagsRead m, flagOf (putFlag s.p f on) g = s.flag g := fun g hg =>
    (flagOf_putFlag ..).trans (if_neg (ne_of_mem_of_not_mem hg hf))
  have hp := status_after_putFlag (fun g hg => execute_flag_other hg ea byte s) (execute_flag hq ea byte)
  calc execute m ea byte (s.withP (putFlag s.p f on))
    _ = (execute m ea byte s).withP (execute m ea byte (s.withP (putFlag s.p f on))).p := execute_withP hq ea byte
    _ = (execute m ea byte s).withP (if f ∈ flagsWritten m then (execute m ea byte s).p
          else putFlag (execute m ea byte s).p f on) := by rw [hp]
    _ = if f ∈ flagsWritten m then execute m ea byte s else (execute m ea byte s).setFlag f on := by split <;> rfl

end Sys2Proof.Machine

namespace Sys2Proof

open Sys2Proof.Machine Sys2Proof.Claims

/-- Settles O52: the effect's own law for flags, as neither the operand nor the fetch looks at P. -/
theorem flagWritersAndReaders : Obligations.FlagWritersAndReaders := by
  intro i s t h
  obtain rfl := effect_of_exec h
  refine ⟨fun f hf => execute_flag_other hf _ _ _, fun f on hf => ?_⟩
  have heffect : effect i (s.setFlag f on) = effect i s := effect_congr rfl rfl (fun _ => rfl) fun _ => rfl
  rw [exec_eq_effect, heffect]
  exact congrArg _ (execute_setFlag hf _ _ (s.afterFetch i.operand) on)

end Sys2Proof
end

section
/-! PROOFS. Which instructions write and read A, X, Y and SP (spec/10_state.md R21, R22, R23, R25): one law for the four
registers, over the mnemonics, then over the instructions with their addressing modes. -/

namespace Sys2Proof.Machine

open Sys2Proof.Claims

/-- `r <- v` for a byte register. -/
def State.withReg (s : State) (r : Reg) (v : Byte) : State :=
  match r with
  | .a => s.withA v
  | .x => s.withX v
  | .y => s.withY v
  | .sp => s.withSp v

/-- The mnemonics whose row of R21 to R25 says they write the register, the accumulator forms of the shifts apart. -/
def writersOf : Reg → List Mnemonic
  | .a => [.lda, .adc, .sbc, .and, .ora, .eor, .txa, .tya, .pla]
  | .x => [.ldx, .tax, .tsx, .inx, .dex]
  | .y => [.ldy, .tay, .iny, .dey]
  | .sp => [.pha, .php, .pla, .plp, .jsr, .rts, .brk, .rti, .txs]

/-- The mnemonics that read the register in `Execute`, the accumulator forms of the shifts apart. -/
def readersOf : Reg → List Mnemonic
  | .a => [.adc, .sbc, .and, .ora, .eor, .cmp, .bit, .sta, .tax, .tay, .pha]
  | .x => [.stx, .txa, .txs, .cpx, .inx, .dex]
  | .y => [.sty, .tya, .cpy, .iny, .dey]
  | .sp => [.pha, .php, .pla, .plp, .jsr, .rts, .brk, .rti, .tsx]

theorem State.withReg_flag (s : State) (r : Reg) (v : Byte) (f : Flag) : (s.withReg r v).flag f = s.flag f := by
  cases r <;> rfl

theorem State.branch_withReg (s : State) (r : Reg) (v : Byte) (f : Flag) (want : Bool) (ea : Addr) :
    (s.withReg r v).branch f want ea = (s.branch f want ea).withReg r v := by
  simp only [State.branch, State.withReg_flag]
  split
  · cases r <;> rfl
  · rfl

theorem State.reg_branch (s : State) (r : Reg) (f : Flag) (want : Bool) (ea : Addr) :
    reg (s.branch f want ea) r = reg s r := by
  obtain ⟨_, h⟩ | ⟨_, h⟩ := s.branch_cases f want ea
  · rw [h]; cases r <;> rfl
  · rw [h]

/-- Where the row of the register lists the mnemonic, `hr` is contradictory; the other effects leave the field by
definition. For BRK the laws of `enterBreak` say so without evaluating its stores. -/
theorem execute_reg_other {m : Mnemonic} {r : Reg} {ea : Option Addr} (hr : m ∉ writersOf r)
    (hacc : r = .a → m.needs = .either → ea ≠ none) (byte : Byte) (s : State) :
    reg (execute m ea byte s) r = reg s r := by
  cases m
  case bcc | bcs | beq | bne | bmi | bpl | bvc | bvs => exact State.reg_branch _ r _ _ _
  case asl | lsr | rol | ror =>
    cases ea with
    | none => cases r <;> simp [Mnemonic.needs] at hacc <;> rfl
    | some addr => cases r <;> rfl
  case brk => cases r <;> simp [writersOf] at hr <;> simp [reg, execute, semBrk]
  all_goals cases r <;> simp [writersOf] at hr <;> rfl

/-- The same split: a reader contradicts `hr`, and the other effects do not look at the register. -/
theorem execute_withReg {m : Mnemonic} {r : Reg} {ea : Option Addr} (hr : m ∉ readersOf r)
    (hacc : r = .a → m.needs = .either → ea ≠ none) (byte : Byte) (s : State) (v : Byte) :
    execute m ea byte (s.withReg r v) =
      if m ∈ writersOf r then execute m ea byte s else (execute m ea byte s).withReg r v := by
  cases m
  case bcc | bcs | beq | bne | bmi | bpl | bvc | bvs => cases r <;> exact s.branch_withReg _ v _ _ _
  case asl | lsr | rol | ror =>
    cases ea with
    | none => cases r <;> simp [Mnemonic.needs] at hacc <;> rfl
    | some addr => cases r <;> rfl
  all_goals cases r <;> simp [readersOf] at hr <;> rfl

/-- A shift or rotate that is not in its accumulator form has resolved an address. -/
theorem ea_ne_none_of_not_accumulatorShift {i : Instr} (hi : accumulatorShift i = false)
    (hneeds : i.mnemonic.needs = .either) (s : State) : i.ea s ≠ none := by
  intro hea
  have hop : i.operand = .none := effectiveAddress_eq_none.mp hea
  have hm : i.mnemonic ∉ [Mnemonic.asl, .lsr, .rol, .ror] := by simpa [accumulatorShift, hop] using hi
  revert hneeds hm
  cases i.mnemonic <;> simp [Mnemonic.needs]

/-- A register is as before unless its row lists the mnemonic as a writer. -/
theorem exec_reg_other {i : Instr} {s t : State} {r : Reg} (h : exec i s = .next t) (hr : i.mnemonic ∉ writersOf r)
    (hacc : r = .a → accumulatorShift i = false) : reg t r = reg s r := by
  obtain rfl := effect_of_exec h
  have hreg : reg (s.afterFetch i.operand) r = reg s r := by cases r <;> rfl
  rw [effect, execute_reg_other hr (fun ha hneeds => ea_ne_none_of_not_accumulatorShift (hacc ha) hneeds s), hreg]

/-- A register that neither the mnemonic nor the addressing mode reads shows only in itself, and not where it is
written. -/
theorem exec_withReg {i : Instr} {s t : State} {r : Reg} (h : exec i s = .next t) (hr : i.mnemonic ∉ readersOf r)
    (hacc : r = .a → accumulatorShift i = false)
    (hx : r = .x → i.operand.mode ∉ [Mode.zeroPageX, .absoluteX, .indirectX])
    (hy : r = .y → i.operand.mode ∉ [Mode.zeroPageY, .absoluteY, .indirectY]) (v : Byte) :
    exec i (s.withReg r v) = .next (if i.mnemonic ∈ writersOf r then t else t.withReg r v) := by
  obtain rfl := effect_of_exec h
  have heffect : effect i (s.withReg r v) = effect i s := by
    cases r with
    | a | sp => exact effect_congr rfl rfl (fun _ => rfl) fun _ => rfl
    | x => exact effect_congr rfl rfl (fun hmode => absurd hmode (hx rfl)) fun _ => rfl
    | y => exact effect_congr rfl rfl (fun _ => rfl) fun hmode => absurd hmode (hy rfl)
  have hfetch : (s.withReg r v).afterFetch i.operand = (s.afterFetch i.operand).withReg r v := by cases r <;> rfl
  rw [exec_eq_effect, heffect, hfetch, effect,
    execute_withReg hr (fun ha hneeds => ea_ne_none_of_not_accumulatorShift (hacc ha) hneeds s)]

theorem mnemonic_eq_txs {i : Instr} : i.mnemonic = .txs ↔ i = .txs := by
  cases i <;> simp [Instr.mnemonic]

theorem mnemonic_eq_tsx {i : Instr} : i.mnemonic = .tsx ↔ i = .tsx := by
  cases i <;> simp [Instr.mnemonic]

end Sys2Proof.Machine

namespace Sys2Proof

open Sys2Proof.Machine Sys2Proof.Claims

theorem writesA_iff {i : Instr} (hacc : accumulatorShift i = false) :
    writesA i = true ↔ i.mnemonic ∈ writersOf .a := by
  simp [writesA, hacc, writersOf]

theorem readsA_iff {i : Instr} (hacc : accumulatorShift i = false) :
    readsA i = true ↔ i.mnemonic ∈ readersOf .a := by
  simp [readsA, hacc, readersOf]

theorem writesX_iff {i : Instr} : writesX i = true ↔ i.mnemonic ∈ writersOf .x := by simp [writesX, writersOf]

theorem writesY_iff {i : Instr} : writesY i = true ↔ i.mnemonic ∈ writersOf .y := by simp [writesY, writersOf]

theorem not_readsX_iff {i : Instr} : readsX i = false ↔
    i.mnemonic ∉ readersOf .x ∧ i.operand.mode ∉ [Mode.zeroPageX, .absoluteX, .indirectX] := by
  simp [readsX, readersOf]

theorem not_readsY_iff {i : Instr} : readsY i = false ↔
    i.mnemonic ∉ readersOf .y ∧ i.operand.mode ∉ [Mode.zeroPageY, .absoluteY, .indirectY] := by
  simp [readsY, readersOf]

theorem mem_writersOf_sp {i : Instr} : i.mnemonic ∈ writersOf .sp ↔ usesStack i = true ∨ i = .txs := by
  simp [writersOf, usesStack, ← mnemonic_eq_txs, or_assoc]

theorem mem_readersOf_sp {i : Instr} : i.mnemonic ∈ readersOf .sp ↔ usesStack i = true ∨ i = .tsx := by
  simp [readersOf, usesStack, ← mnemonic_eq_tsx, or_assoc]

/-- Settles O53: outside the accumulator forms of the shifts, each table of R21 to R23 is the mnemonic's row with the
indexing modes. -/
theorem registerWritersAndReaders : Obligations.RegisterWritersAndReaders := by
  intro i s t h
  refine ⟨fun hw => ?_, fun hw => ?_, fun hw => ?_, fun v hr => ?_, fun v hr => ?_, fun v hr => ?_⟩
  · have hacc : accumulatorShift i = false := (Bool.or_eq_false_iff.mp hw).1
    exact exec_reg_other h (mt (writesA_iff hacc).mpr (by simp [hw])) (fun _ => hacc)
  · exact exec_reg_other (r := .x) h (mt writesX_iff.mpr (by simp [hw])) nofun
  · exact exec_reg_other (r := .y) h (mt writesY_iff.mpr (by simp [hw])) nofun
  · have hacc : accumulatorShift i = false := (Bool.or_eq_false_iff.mp hr).1
    simp only [writesA_iff hacc]
    exact exec_withReg (r := .a) h (mt (readsA_iff hacc).mpr (by simp [hr])) (fun _ => hacc) nofun nofun v
  · obtain ⟨hm, hmode⟩ := not_readsX_iff.mp hr
    simp only [writesX_iff]
    exact exec_withReg (r := .x) h hm nofun (fun _ => hmode) nofun v
  · obtain ⟨hm, hmode⟩ := not_readsY_iff.mp hr
    simp only [writesY_iff]
    exact exec_withReg (r := .y) h hm nofun nofun (fun _ => hmode) v

/-- Settles O54: SP's row is the stack mnemonics with TXS as a writer and TSX as a reader, and no mode looks at it. -/
theorem stackPointerWritersAndReaders : Obligations.StackPointerWritersAndReaders := by
  intro i s t h
  refine ⟨fun hu hi => ?_, fun v hu hi => ?_⟩
  · have hw : i.mnemonic ∉ writersOf .sp := by simp [mem_writersOf_sp, hu, hi]
    exact exec_reg_other h hw nofun
  · have hr : i.mnemonic ∉ readersOf .sp := by simp [mem_readersOf_sp, hu, hi]
    have hw : i.mnemonic ∈ writersOf .sp ↔ i = .txs := by simp [mem_writersOf_sp, hu]
    simp only [← hw]
    exact exec_withReg (r := .sp) h hr nofun nofun nofun v

end Sys2Proof
end

section
/-! PROOFS. What an instruction does to memory (spec/20_memory.md R50, R53, R54, R58, R65, R66): the memory after it is made
from the memory before by byte writes at the addresses `storedAt` names. The canonical form and the frame are two uses of
that one fact. -/

namespace Sys2Proof.Machine

open Sys2Proof.Claims

@[simp] theorem State.branch_mem (s : State) (f : Flag) (want : Bool) (ea : Addr) :
    (s.branch f want ea).mem = s.mem := by
  obtain ⟨_, h⟩ | ⟨_, h⟩ := s.branch_cases f want ea
  · rw [h]; rfl
  · rw [h]

/-- Whatever holds of the memory before, and survives a byte write at each address the instruction stores to, holds of
the memory after. -/
theorem exec_mem_of_set {i : Instr} {s t : State} (h : exec i s = .next t) {P : Memory → Prop} (hs : P s.mem)
    (hset : ∀ m, P m → ∀ k ∈ storedAt i s, ∀ v, P (Memory.set m k.toNat v)) : P t.mem := by
  obtain rfl := effect_of_exec h
  have haddress : i.mnemonic.needs = .address → ∃ ea, i.ea s = some ea := fun hneeds =>
    Option.ne_none_iff_exists'.mp (effectiveAddress_eq_none.not.mpr ((operand_of_needs i).1 hneeds))
  simp only [storedAt] at hset
  simp only [effect]
  generalize i.mnemonic = m at *
  cases m
  case sta | stx | sty | inc | dec =>
    obtain ⟨ea, hea⟩ := haddress rfl
    rw [hea] at hset ⊢
    exact hset _ hs ea (by simp) _
  case asl | lsr | rol | ror =>
    cases hloc : i.ea s with
    | none => exact hs
    | some ea => exact hset _ hs ea (by simp [hloc]) _
  case pha | php => exact hset _ hs (stackAddr s.sp) (by simp) _
  case jsr =>
    have hlow := hset _ hs (stackAddr s.sp) (by simp)
    exact hset _ (hlow _) (stackAddr s.sp + 1) (by simp) _
  case brk =>
    have hlow := hset _ hs (stackAddr s.sp) (by simp)
    have hhigh := fun v => hset _ (hlow v) (stackAddr s.sp + 1) (by simp)
    exact hset _ (hhigh _ _) (stackAddr (s.sp + 2)) (by simp) _
  case bcc | bcs | beq | bne | bmi | bpl | bvc | bvs => exact (State.branch_mem ..).symm ▸ hs
  all_goals exact hs

/-- Every instruction keeps the canonical form. -/
theorem exec_keeps_inv {i : Instr} {s t : State} (hs : s.Inv) (h : exec i s = .next t) : t.Inv :=
  exec_mem_of_set h (P := fun m => Memory.wf m = true) hs fun _ hm k _ v => Memory.wf_set v k.isLt hm

/-- A byte the instruction does not store to is as before. -/
theorem exec_readByte_other {i : Instr} {s t : State} {k : Addr} (h : exec i s = .next t) (hk : k ∉ storedAt i s) :
    t.readByte k = s.readByte k := by
  refine exec_mem_of_set h (P := fun m => Memory.get m k.toNat = s.readByte k) rfl fun m hm a ha v => ?_
  have hne : k.toNat ≠ a.toNat := BitVec.toNat_inj.not.mpr (ne_of_mem_of_not_mem ha hk).symm
  rw [Memory.get_set_other m v hne, hm]

/-- The second byte of a stack access: 0x0200 at SP = 0xFF (D7). -/
theorem stackAddr_succ_toNat (sp : Byte) : (stackAddr sp + 1).toNat = 0x101 + sp.toNat := by
  have hsp : sp.toNat < 256 := sp.isLt
  have hfirst : (stackAddr sp).toNat = 0x100 + sp.toNat := stackAddr_toNat sp
  bv_omega

/-- BRK's three slots are all that a stack instruction may store to. -/
theorem storedAt_subset_of_usesStack {i : Instr} (hi : usesStack i = true) (s : State) :
    storedAt i s ⊆ [stackAddr s.sp, stackAddr s.sp + 1, stackAddr (s.sp + 2)] := by
  simp only [usesStack] at hi
  simp only [storedAt]
  generalize i.mnemonic = m at *
  cases m
  case pha | php | jsr | brk | pla | plp | rts | rti => simp
  all_goals simp at hi

/-- Only the second byte of a word can leave the stack page, and then by one address (R65, D7). -/
theorem stackSlot_range {k : Addr} {sp : Byte} (hk : k ∈ [stackAddr sp, stackAddr sp + 1, stackAddr (sp + 2)]) :
    0x0100 ≤ k.toNat ∧ k.toNat ≤ 0x0200 := by
  have hsp : sp.toNat < 256 := sp.isLt
  have hsp2 : (sp + 2).toNat < 256 := (sp + 2).isLt
  simp only [List.mem_cons, List.not_mem_nil, or_false] at hk
  obtain rfl | rfl | rfl := hk
  · rw [stackAddr_toNat]; omega
  · rw [stackAddr_succ_toNat]; omega
  · rw [stackAddr_toNat]; omega

end Sys2Proof.Machine

namespace Sys2Proof

open Sys2Proof.Machine Sys2Proof.Claims

/-- Settles O21: a step with a next state executes an instruction or meets an undefined code, which writes no memory. -/
theorem stepKeepsMemoryCanonical : Obligations.StepKeepsMemoryCanonical := by
  intro s t hs h
  obtain ⟨i, _, _, hstep⟩ | ⟨op, _, _, hstep⟩ | ⟨_, hstep⟩ | ⟨f, _, hstep⟩ := step_cases s
  · exact exec_keeps_inv hs (hstep.symm.trans h)
  · cases hstep.symm.trans h
    exact hs
  · cases hstep.symm.trans h
  · cases hstep.symm.trans h

/-- Settles O57: the frame of `exec_readByte_other`, and the slots of the stack instructions. -/
theorem memoryChangesOnlyWhereStored : Obligations.MemoryChangesOnlyWhereStored := by
  intro i s t h
  exact ⟨fun _ hk => exec_readByte_other h hk,
    fun hi _ hk => stackSlot_range (storedAt_subset_of_usesStack hi s hk)⟩

end Sys2Proof
end

section
/-! PROOFS. Memory accesses and the stack primitives (spec/20_memory.md R52 to R54, R60 to R64): words as numbers, reads
after writes, the frames of the pushes, and pops after pushes. -/

namespace Sys2Proof.Machine

theorem wordOf_toNat (lo hi : Byte) : (wordOf lo hi).toNat = lo.toNat + 256 * hi.toNat := by
  rw [wordOf, BitVec.toNat_append, ← Nat.shiftLeft_add_eq_or_of_lt lo.isLt, Nat.shiftLeft_eq]
  omega

theorem State.readByte_writeByte_same (s : State) (addr : Addr) (v : Byte) :
    (s.writeByte addr v).readByte addr = v := by
  rw [State.readByte_writeByte, if_pos rfl]

theorem State.readByte_writeByte_other (s : State) {addr k : Addr} (v : Byte) (h : k ≠ addr) :
    (s.writeByte addr v).readByte k = s.readByte k := by
  rw [State.readByte_writeByte, if_neg h]

theorem State.readByte_writeWord_low (s : State) (addr v : Addr) : (s.writeWord addr v).readByte addr = lowByte v := by
  rw [State.readByte_writeWord, if_neg (addr_succ_ne addr).symm, if_pos rfl]

theorem State.readByte_writeWord_high (s : State) (addr v : Addr) :
    (s.writeWord addr v).readByte (addr + 1) = highByte v := by
  rw [State.readByte_writeWord, if_pos rfl]

theorem State.readByte_writeWord_other (s : State) {addr k : Addr} (v : Addr) (hlow : k ≠ addr)
    (hhigh : k ≠ addr + 1) :
    (s.writeWord addr v).readByte k = s.readByte k := by
  rw [State.readByte_writeWord, if_neg hhigh, if_neg hlow]

theorem State.readWord_writeWord_same (s : State) (addr v : Addr) : (s.writeWord addr v).readWord addr = v := by
  rw [State.readWord, State.readByte_writeWord_low, State.readByte_writeWord_high, wordOf_low_high]

/-- The slots of a word push at the top of the stack page (D7). -/
theorem stackAddr_succ_of_sp_max {sp : Byte} (h : sp = 0xFF) : stackAddr sp + 1 = 0x0200 := by
  subst h
  rfl

theorem State.pop8_push8 (s : State) (v : Byte) : (s.push8 v).pop8.1 = v := by
  rw [State.pop8_fst, State.push8_sp, BitVec.add_sub_cancel]
  exact s.readByte_writeByte_same (stackAddr s.sp) v

theorem State.pop8_push8_sp (s : State) (v : Byte) : (s.push8 v).pop8.2.sp = s.sp := by
  rw [State.pop8_snd, State.withSp_sp, State.push8_sp, BitVec.add_sub_cancel]

theorem State.pop16_push16 (s : State) (v : Addr) : (s.push16 v).pop16.1 = v := by
  rw [State.pop16_fst, State.push16_sp, BitVec.add_sub_cancel]
  exact s.readWord_writeWord_same (stackAddr s.sp) v

theorem State.pop16_push16_sp (s : State) (v : Addr) : (s.push16 v).pop16.2.sp = s.sp := by
  rw [State.pop16_snd, State.withSp_sp, State.push16_sp, BitVec.add_sub_cancel]

end Sys2Proof.Machine

namespace Sys2Proof

open Sys2Proof.Machine Sys2Proof.Claims

theorem keptBut_push8 (s : State) (v : Byte) : KeptBut [.sp] [] [stackAddr s.sp] s (s.push8 v) where
  regs r hr := by cases r <;> simp [reg] at hr ⊢
  flags _ _ := rfl
  memory _ hk := s.readByte_writeByte_other v (by simpa using hk)
  run := rfl

theorem keptBut_push16 (s : State) (v : Addr) :
    KeptBut [.sp] [] [stackAddr s.sp, stackAddr s.sp + 1] s (s.push16 v) where
  regs r hr := by cases r <;> simp [reg] at hr ⊢
  flags _ _ := rfl
  memory k hk := by
    obtain ⟨hlow, hhigh⟩ : k ≠ stackAddr s.sp ∧ k ≠ stackAddr s.sp + 1 := by simpa using hk
    exact s.readByte_writeWord_other v hlow hhigh
  run := rfl

/-- Settles O3: a word access is two byte accesses, at addresses that always differ. -/
theorem memoryReadsBackWhatWasWritten : Obligations.MemoryReadsBackWhatWasWritten := by
  intro s addr v b
  refine ⟨wordOf_toNat _ _, s.readByte_writeByte_same addr b, fun _ hk => s.readByte_writeByte_other b hk, rfl,
    s.readByte_writeWord_low addr v, s.readByte_writeWord_high addr v, ?_, rfl, s.readWord_writeWord_same addr v⟩
  exact fun _ hlow hhigh => s.readByte_writeWord_other v hlow hhigh

/-- Settles O4: a push is a byte write and a pop a byte read, at the stack address before and after SP moves. -/
theorem bytePushAndPopMoveUpward : Obligations.BytePushAndPopMoveUpward := by
  intro s v
  refine ⟨stackAddr_toNat s.sp, BitVec.toNat_add s.sp 1, s.readByte_writeByte_same _ v, keptBut_push8 s v, rfl, ?_,
    rfl, rfl⟩
  rw [State.pop8_snd, State.withSp_sp]
  bv_omega

/-- Settles O5: the word accesses of O3 at the stack address, whose second byte is not held to the stack page. -/
theorem wordPushAndPopCrossThePage : Obligations.WordPushAndPopCrossThePage := by
  intro s v
  refine ⟨BitVec.toNat_add s.sp 2, s.readByte_writeWord_low _ v, s.readByte_writeWord_high _ v,
    stackAddr_succ_of_sp_max, keptBut_push16 s v, rfl, ?_, rfl, rfl⟩
  rw [State.pop16_snd, State.withSp_sp]
  bv_omega

/-- Settles O6: the retreat of the pop undoes the advance of the push modulo 256, so it reads where the push wrote. -/
theorem popUndoesPush : Obligations.PopUndoesPush := by
  intro s v w
  exact ⟨s.pop8_push8 v, s.pop8_push8_sp v, s.pop16_push16 w, s.pop16_push16_sp w⟩

end Sys2Proof
end

section
/-! PROOFS. Decoding and encoding (spec/30_encoding.md R80 to R104): what one row of the opcode table reads and writes,
the rows checked one by one, and the two directions of the round trip. -/

namespace Sys2Proof

open Sys2Proof.Machine Sys2Proof.Claims

/-! ### Decoding the row of an instruction: one rule per format -/

section
variable {op : Byte} {cycles : Nat}

theorem decode_of_row {b1 b2 : Byte} {row : OpRow} (h : opRow op = some row) :
    decode op b1 b2 = .ok (row.format.fill b1 b2) := by
  rw [decode, h]

theorem decodeBytes_f1 {i : Instr} (h : opRow op = some ⟨op, .f1 i, cycles⟩) (rest : List Byte) :
    decodeBytes (op :: rest) = .ok i :=
  decode_of_row h

theorem decodeBytes_f2 {build : Byte → Instr} (h : opRow op = some ⟨op, .f2 build, cycles⟩) (b : Byte)
    (rest : List Byte) : decodeBytes (op :: b :: rest) = .ok (build b) :=
  decode_of_row h

theorem decodeBytes_f3 {build : Addr → Instr} (h : opRow op = some ⟨op, .f3 build, cycles⟩) (w : Addr)
    (rest : List Byte) : decodeBytes (op :: lowByte w :: highByte w :: rest) = .ok (build w) := by
  calc decodeBytes (op :: lowByte w :: highByte w :: rest)
    _ = .ok (build (wordOf (lowByte w) (highByte w))) := decode_of_row h
    _ = .ok (build w) := by rw [wordOf_low_high]

end

/-- Settles O10: every opcode's row has the format of its instruction's operand, and each format reads back the operand
bytes the encoder writes. -/
theorem decodeOfEncode : Obligations.DecodeOfEncode := by
  intro i rest
  cases i with
  | aslAcc | lsrAcc | rolAcc | rorAcc | inx | iny | dex | dey | clc | cld | cli | clv | sec | sed | sei
  | tax | tay | txa | tya | tsx | txs | pha | php | pla | plp | rts | brk | rti | nop =>
    exact decodeBytes_f1 rfl rest
  | adcAbs w | sbcAbs w | andAbs w | oraAbs w | eorAbs w | aslAbs w | lsrAbs w | rolAbs w | rorAbs w | cmpAbs w
  | cpxAbs w | cpyAbs w | incAbs w | decAbs w | ldaAbs w | ldxAbs w | ldyAbs w | staAbs w | stxAbs w | styAbs w
  | bitAbs w | jsr w | jmpAbs w | jmpInd w
  | adcAbsX w | sbcAbsX w | andAbsX w | oraAbsX w | eorAbsX w | aslAbsX w | lsrAbsX w | rolAbsX w | rorAbsX w
  | cmpAbsX w | incAbsX w | decAbsX w | ldaAbsX w | ldyAbsX w | staAbsX w
  | adcAbsY w | sbcAbsY w | andAbsY w | oraAbsY w | eorAbsY w | cmpAbsY w | ldaAbsY w | ldxAbsY w | staAbsY w =>
    exact decodeBytes_f3 rfl w rest
  | _ b => exact decodeBytes_f2 rfl b rest

/-! ### The rows of the table -/

/-- The operand bytes that an instruction of this format has when it was filled from `b1` and `b2`. -/
def Format.operandBytes : Format → Byte → Byte → List Byte
  | .f1 _, _, _ => []
  | .f2 _, b1, _ => [b1]
  | .f3 _, b1, b2 => [lowByte (wordOf b1 b2), highByte (wordOf b1 b2)]

theorem Format.operandBytes_prefix (f : Format) (b1 b2 : Byte) : f.operandBytes b1 b2 <+: [b1, b2] := by
  cases f <;> simp [Format.operandBytes]

/-- Each row's code is its instruction's opcode and its format that of the instruction's operand: the table evaluated
row by row, at operand bytes left open. -/
theorem encode_fill {row : OpRow} (h : row ∈ opTable) (b1 b2 : Byte) :
    encode (row.format.fill b1 b2) = row.code :: row.format.operandBytes b1 b2 := by
  have hrows : opTable.map (fun r => encode (r.format.fill b1 b2)) =
      opTable.map (fun r => r.code :: r.format.operandBytes b1 b2) := rfl
  exact List.map_inj_left.mp hrows row h

theorem Operand.length_bytes (op : Operand) : op.bytes.length = op.size := by
  cases op <;> rfl

theorem length_encode (i : Instr) : (encode i).length = i.length := by
  rw [encode, List.length_cons, Operand.length_bytes, Instr.length, Nat.add_comm]

theorem encode_prefix_of_decode {op b1 b2 : Byte} {i : Instr} (h : decode op b1 b2 = .ok i) :
    encode i <+: [op, b1, b2] := by
  obtain ⟨row, hrow, rfl, rfl⟩ := decode_ok h
  rw [encode_fill hrow, List.prefix_cons_inj]
  exact row.format.operandBytes_prefix b1 b2

/-- Settles O11: the bytes read begin with the encoding, which is as long as the instruction. -/
theorem encodeOfDecode : Obligations.EncodeOfDecode := by
  intro op b1 b2 i h
  rw [← length_encode i]
  exact List.prefix_iff_eq_take.mp (encode_prefix_of_decode h)

theorem decode_eq_error_iff {op b1 b2 : Byte} :
    decode op b1 b2 = .error (.undefinedCode op) ↔ opRow op = none := by
  unfold decode
  split <;> simp [*]

/-- The 256 values of an opcode byte, in rising order. -/
def allCodes : List Byte := (List.range 256).map (BitVec.ofNat 8)

theorem mem_allCodes (op : Byte) : op ∈ allCodes :=
  List.mem_map.mpr ⟨op.toNat, List.mem_range.mpr op.isLt, BitVec.eq_of_toNat_eq (by simp)⟩

/-- The list of R102 is what is left of the codes when the table's are taken out: one lookup per code. -/
theorem undefinedCodes_eq : undefinedCodes = allCodes.filter fun op => (opRow op).isNone := by
  decide

theorem opRow_eq_none_iff (op : Byte) : opRow op = none ↔ op ∈ undefinedCodes := by
  simp [undefinedCodes_eq, mem_allCodes]

/-- Settles O12: the decoder refuses where the table has no row. -/
theorem undefinedCodesAreRefused : Obligations.UndefinedCodesAreRefused := by
  intro op b1 b2
  rw [decode_eq_error_iff, opRow_eq_none_iff]

/-- The row of the printed table (R100) that an instruction belongs to: code, mnemonic, mode, length. -/
def Instr.specRow (i : Instr) : Byte × Mnemonic × Mode × Nat := (i.opcode, i.mnemonic, i.operand.mode, i.length)

/-- Each printed row's code is looked up and the instruction's own row read off, at operand bytes left open. -/
theorem decode_specRow {row : Byte × Mnemonic × Mode × Nat} (h : row ∈ specRows) (b1 b2 : Byte) :
    (decode row.1 b1 b2).map Instr.specRow = .ok row := by
  have hrows : specRows.map (fun r => (decode r.1 b1 b2).map Instr.specRow) = specRows.map .ok := rfl
  exact List.map_inj_left.mp hrows row h

/-- R100 prints its rows in rising order of their codes. -/
theorem specCodes_rising : (specRows.map Prod.fst).IsChain (· < ·) := by
  simp [specRows, specRows1, specRows2, specRows3, specRows4, specRows5, specRows6, specRows7, specRows8]

/-- Settles O13: rising codes differ, and the decoder gives an instruction of the printed row. -/
theorem opcodeTableRowsDecode : Obligations.OpcodeTableRowsDecode := by
  refine ⟨rfl, specCodes_rising.pairwise.nodup, fun row hrow b1 b2 => ?_⟩
  have hdecode := decode_specRow hrow b1 b2
  cases h : decode row.1 b1 b2 with
  | error e => simp [h, Except.map] at hdecode
  | ok i =>
    obtain rfl : i.specRow = row := by simpa [h, Except.map] using hdecode
    exact ⟨i, rfl, rfl, rfl, rfl⟩

/-- Settles O14: each example is one lookup. -/
theorem specWordsDecode : Obligations.SpecWordsDecode :=
  ⟨rfl, rfl, rfl, rfl, rfl, rfl, rfl, rfl, rfl⟩

end Sys2Proof
end

section
/-! PROOFS. Resolution of an instruction fetched from memory (spec/30_encoding.md R83 to R95): its operand is its
mode's, made of the bytes after the opcode, so each mode's address is computed from memory. -/

namespace Sys2Proof

open Sys2Proof.Machine

/-- The operand a mode makes of the two bytes after the opcode (R81, R83). -/
def Mode.operandFrom (b1 b2 : Byte) : Mode → Operand
  | .immediate => .immediate b1
  | .zeroPage => .zeroPage b1
  | .zeroPageX => .zeroPageX b1
  | .zeroPageY => .zeroPageY b1
  | .absolute => .absolute (wordOf b1 b2)
  | .absoluteX => .absoluteX (wordOf b1 b2)
  | .absoluteY => .absoluteY (wordOf b1 b2)
  | .indirect => .indirect (wordOf b1 b2)
  | .indirectX => .indirectX b1
  | .indirectY => .indirectY b1
  | .relative => .relative b1
  | .noneAddressing => .none

theorem word_eq_of_bytes_prefix {w : Addr} {b1 b2 : Byte} (h : [lowByte w, highByte w] <+: [b1, b2]) :
    w = wordOf b1 b2 := by
  obtain ⟨rfl, rfl⟩ : lowByte w = b1 ∧ highByte w = b2 := by simpa using h
  exact (wordOf_low_high w).symm

theorem operand_eq_of_bytes_prefix {op : Operand} {b1 b2 : Byte} (h : op.bytes <+: [b1, b2]) :
    op = op.mode.operandFrom b1 b2 := by
  cases op with
  | absolute w | absoluteX w | absoluteY w | indirect w => exact congrArg _ (word_eq_of_bytes_prefix h)
  | none => rfl
  | _ b => exact congrArg _ (by simpa [Operand.bytes] using h)

theorem operand_of_decode {op b1 b2 : Byte} {i : Instr} (h : decode op b1 b2 = .ok i) :
    i.operand = i.operand.mode.operandFrom b1 b2 :=
  operand_eq_of_bytes_prefix (List.cons_prefix_cons.mp (encode_prefix_of_decode h)).2

theorem operand_of_fetch {s : State} {i : Instr} (h : s.fetch = .ok i) :
    i.operand = i.operand.mode.operandFrom (s.readByte (s.pc + 1)) (s.readByte (s.pc + 1 + 1)) := by
  rw [BitVec.add_assoc]
  exact operand_of_decode h

/-- The constructors of `Instr` keep to the table of R97. -/
theorem mode_mem_modes (i : Instr) : i.operand.mode ∈ i.mnemonic.modes := by
  cases i <;> simp [Instr.operand, Operand.mode, Instr.mnemonic, Mnemonic.modes]

/-! The columns of R97 with few entries. -/

theorem zeroPageY_mem_modes {m : Mnemonic} (h : .zeroPageY ∈ m.modes) : m = .ldx ∨ m = .stx := by
  cases m <;> simp [Mnemonic.modes] at h ⊢

theorem indirect_mem_modes {m : Mnemonic} (h : .indirect ∈ m.modes) : m = .jmp := by
  cases m <;> simp [Mnemonic.modes] at h ⊢

theorem relative_mem_modes {m : Mnemonic} (h : .relative ∈ m.modes) :
    m ∈ [Mnemonic.bcc, .bcs, .beq, .bne, .bmi, .bpl, .bvc, .bvs] := by
  cases m <;> simp [Mnemonic.modes] at h ⊢

/-- The operand byte is the memory byte at the resolved address; Immediate has its own clause. -/
theorem readOperand_of_not_immediate {i : Instr} (s : State) (h : i.operand.mode ≠ .immediate) :
    i.readOperand s = (i.ea s).map s.readByte := by
  unfold Instr.readOperand Instr.ea
  cases hop : i.operand with
  | immediate v => exact absurd (congrArg Operand.mode hop) h
  | _ => rfl

/-- Resolution of an instruction fetched from memory, both parts as functions of its mode and the state. -/
theorem resolve_of_fetch {s : State} {i : Instr} {m : Mode} (h : s.fetch = .ok i) (hm : i.operand.mode = m) :
    i.ea s = effectiveAddress (m.operandFrom (s.readByte (s.pc + 1)) (s.readByte (s.pc + 1 + 1))) (s.advancePc 1) ∧
      (resolve i.operand (s.advancePc 1)).2 = s.withPc (s.pc + 1 + BitVec.ofNat 16 m.operandBytes) := by
  subst hm
  rw [← operand_of_fetch h]
  exact ⟨rfl, rfl⟩

theorem readOperand_of_fetch_immediate {s : State} {i : Instr} (h : s.fetch = .ok i)
    (hm : i.operand.mode = .immediate) : i.readOperand s = some (s.readByte (s.pc + 1)) := by
  rw [Instr.readOperand, operand_of_fetch h, hm]
  rfl

/-- Settles O7: each clause is its mode's case of resolution; the mnemonics of ZeroPageY and Relative are those of their
columns in R97. -/
theorem directModesResolve : Obligations.DirectModesResolve := by
  intro s i h
  refine ⟨rfl, fun hm => ?immediate, resolve_of_fetch h, resolve_of_fetch h, fun hm => ?zeroPageY, resolve_of_fetch h,
    resolve_of_fetch h, resolve_of_fetch h, fun hm => ?relative, fun hm => ?noneAddressing,
    readOperand_of_not_immediate s⟩
  case immediate =>
    obtain ⟨hea, hpc⟩ := resolve_of_fetch h hm
    exact ⟨hea, readOperand_of_fetch_immediate h hm, hpc⟩
  case zeroPageY =>
    obtain ⟨hea, hpc⟩ := resolve_of_fetch h hm
    exact ⟨hea, hpc, zeroPageY_mem_modes (hm ▸ mode_mem_modes i)⟩
  case relative =>
    obtain ⟨hea, hpc⟩ := resolve_of_fetch h hm
    exact ⟨hea, hpc, relative_mem_modes (hm ▸ mode_mem_modes i)⟩
  case noneAddressing =>
    obtain ⟨hea, hpc⟩ := resolve_of_fetch h hm
    exact ⟨hea, hpc.trans (congrArg s.withPc (BitVec.add_zero _))⟩

/-- Settles O8: the pointer modes of the same rule; `readWord` takes the high byte from the next 16-bit address. -/
theorem pointerModesResolve : Obligations.PointerModesResolve := by
  intro s i h
  refine ⟨fun hm => ?indirect, resolve_of_fetch h, resolve_of_fetch h⟩
  case indirect =>
    obtain ⟨hea, hpc⟩ := resolve_of_fetch h hm
    exact ⟨hea, hpc, indirect_mem_modes (hm ▸ mode_mem_modes i)⟩

end Sys2Proof
end

section
/-! PROOFS. The execution core (spec/40_execution_core.md R120 to R128): which effects touch the run state and pc, what the
resolution of an operand takes from pc, and the step and the run as uses of those facts. -/

namespace Sys2Proof.Machine

open Sys2Proof.Claims

/-! ### The run state -/

theorem State.run_branch (s : State) (f : Flag) (want : Bool) (ea : Addr) : (s.branch f want ea).run = s.run := by
  obtain ⟨_, h⟩ | ⟨_, h⟩ := s.branch_cases f want ea
  · rw [h]; rfl
  · rw [h]

theorem execute_run_other {m : Mnemonic} (hm : m ≠ .brk) (ea : Option Addr) (byte : Byte) (s : State) :
    (execute m ea byte s).run = s.run := by
  cases m
  case brk => exact absurd rfl hm
  case bcc | bcs | beq | bne | bmi | bpl | bvc | bvs => exact State.run_branch ..
  case asl | lsr | rol | ror => cases ea <;> rfl
  case rti => exact State.returnFromBreak_run s
  all_goals rfl

theorem mnemonic_eq_brk {i : Instr} : i.mnemonic = .brk ↔ i = .brk := by
  cases i <;> simp [Instr.mnemonic]

/-! ### pc -/

/-- The mnemonics whose effect writes pc (R124). -/
def pcWriters : List Mnemonic := [.bcc, .bcs, .beq, .bne, .bmi, .bpl, .bvc, .bvs, .jmp, .jsr, .rts, .brk, .rti]

theorem not_writesPc_iff {i : Instr} : writesPc i = false ↔ i.mnemonic ∉ pcWriters := by
  simp [writesPc, pcWriters]

/-- Outside the writers of pc, an effect does not look at pc and leaves it. -/
theorem execute_withPc {m : Mnemonic} (hm : m ∉ pcWriters) (ea : Option Addr) (byte : Byte) (s : State) (pc : Addr) :
    execute m ea byte (s.withPc pc) = (execute m ea byte s).withPc pc := by
  cases m
  case bcc | bcs | beq | bne | bmi | bpl | bvc | bvs | jmp | jsr | rts | brk | rti => simp [pcWriters] at hm
  case asl | lsr | rol | ror => cases ea <;> rfl
  all_goals rfl

theorem execute_pc {m : Mnemonic} (hm : m ∉ pcWriters) (ea : Option Addr) (byte : Byte) (s : State) :
    (execute m ea byte s).pc = s.pc := by
  calc (execute m ea byte s).pc
    _ = ((execute m ea byte s).withPc s.pc).pc := congrArg State.pc (execute_withPc hm ea byte s s.pc)
    _ = s.pc := rfl

/-- A mnemonic with an Immediate form works on the operand byte alone. -/
theorem execute_ea_irrelevant {m : Mnemonic} (hm : .immediate ∈ m.modes) (ea ea' : Option Addr) (byte : Byte) :
    execute m ea byte = execute m ea' byte := by
  cases m
  case adc | sbc | and | ora | eor | cmp | cpx | cpy | lda | ldx | ldy => rfl
  all_goals simp [Mnemonic.modes] at hm

/-- Of the modes, only Immediate and Relative resolve to an address that depends on pc. -/
theorem effectiveAddress_withPc {op : Operand} (himm : op.mode ≠ .immediate) (hrel : op.mode ≠ .relative) (s : State)
    (pc : Addr) : effectiveAddress op (s.withPc pc) = effectiveAddress op s := by
  cases op with
  | immediate v => exact absurd rfl himm
  | relative d => exact absurd rfl hrel
  | _ => rfl

/-- For Immediate the byte is the decoded one (log 9); for the other modes it follows the address. -/
theorem operandByte_withPc {op : Operand} (hrel : op.mode ≠ .relative) (s : State) (pc : Addr) :
    operandByte op (s.withPc pc) = operandByte op s := by
  cases op with
  | relative d => exact absurd rfl hrel
  | _ => rfl

/-- Outside the writers of pc there is no Relative mode, and under Immediate the effect ignores the address: what the
operand gives the effect does not depend on pc. -/
theorem effect_withPc {i : Instr} (hi : i.mnemonic ∉ pcWriters) (s : State) (pc : Addr) :
    effect i (s.withPc pc) = effect i s := by
  have hrel : i.operand.mode ≠ .relative := fun hmode =>
    hi (List.mem_append_left [.jmp, .jsr, .rts, .brk, .rti] (relative_mem_modes (hmode ▸ mode_mem_modes i)))
  have hbyte : i.readOperand (s.withPc pc) = i.readOperand s := operandByte_withPc hrel (s.advancePc 1) _
  rw [effect, effect, hbyte]
  by_cases himm : i.operand.mode = .immediate
  · exact execute_ea_irrelevant (himm ▸ mode_mem_modes i) _ _ _
  · have hea : i.ea (s.withPc pc) = i.ea s := effectiveAddress_withPc himm hrel (s.advancePc 1) _
    rw [hea]

/-! ### The step -/

theorem step_of_fetch {s : State} {i : Instr} (hrun : s.run = .running) (hfetch : s.fetch = .ok i) :
    step s = exec i s := by
  simp only [step, hrun, hfetch]

theorem step_of_running {s : State} (hrun : s.run = .running) : ∃ t, step s = .next t := by
  obtain ⟨i, _, _, hstep⟩ | ⟨op, _, _, hstep⟩ | ⟨hend, _⟩ | ⟨f, hend, _⟩ := step_cases s
  · exact ⟨_, hstep.trans (exec_eq_effect i s)⟩
  · exact ⟨_, hstep⟩
  · simp [hend] at hrun
  · simp [hend] at hrun

theorem decode_of_decodeTableWord {nbits w : Nat} {i : Instr} (h : decodeTableWord nbits w = some i) :
    decode (tableByte nbits w 0) (tableByte nbits w 1) (tableByte nbits w 2) = .ok i := by
  unfold decodeTableWord at h
  split at h
  · cases h; assumption
  · cases h

@[simp] theorem State.withFetchWord_pc (s : State) (nbits w : Nat) : (s.withFetchWord nbits w).pc = s.pc := rfl

@[simp] theorem State.withFetchWord_run (s : State) (nbits w : Nat) : (s.withFetchWord nbits w).run = .running := rfl

/-- The three placed bytes lie at different addresses, so each reads back. -/
theorem State.readByte_withFetchWord (s : State) (nbits w : Nat) :
    (s.withFetchWord nbits w).readByte s.pc = tableByte nbits w 0 ∧
      (s.withFetchWord nbits w).readByte (s.pc + 1) = tableByte nbits w 1 ∧
      (s.withFetchWord nbits w).readByte (s.pc + 2) = tableByte nbits w 2 := by
  have h01 : s.pc ≠ s.pc + 1 := by bv_omega
  have h02 : s.pc ≠ s.pc + 2 := by bv_omega
  have h12 : s.pc + 1 ≠ s.pc + 2 := by bv_omega
  have hread (k : Addr) : (s.withFetchWord nbits w).readByte k =
      if k = s.pc + 2 then tableByte nbits w 2 else if k = s.pc + 1 then tableByte nbits w 1
      else if k = s.pc then tableByte nbits w 0 else s.readByte k := by
    rw [← readByte_writeByte, ← readByte_writeByte, ← readByte_writeByte]
    rfl
  simp only [hread, h01, h02, h12, if_true, if_false, and_self]

theorem State.fetch_withFetchWord {nbits w : Nat} {i : Instr} (h : decodeTableWord nbits w = some i) (s : State) :
    (s.withFetchWord nbits w).fetch = .ok i := by
  obtain ⟨h0, h1, h2⟩ := s.readByte_withFetchWord nbits w
  rw [fetch, withFetchWord_pc, h0, h1, h2]
  exact decode_of_decodeTableWord h

/-! ### The run -/

theorem State.runSteps_of_ended {s : State} (hend : s.run ≠ .running) (fuel : Nat) : runSteps fuel s = s := by
  cases fuel with
  | zero => rfl
  | succ fuel =>
    rw [runSteps_succ]
    split
    · next hrun => exact absurd hrun hend
    · rfl

theorem State.runSteps_of_step {s t : State} (hrun : s.run = .running) (hstep : step s = .next t) (fuel : Nat) :
    runSteps (fuel + 1) s = runSteps fuel t := by
  simp only [runSteps_succ, hrun, hstep]

/-- A run can be cut anywhere and taken up again. -/
theorem State.runSteps_add (n k : Nat) (s : State) : runSteps (n + k) s = runSteps k (runSteps n s) := by
  induction n generalizing s with
  | zero => rw [Nat.zero_add]; rfl
  | succ n ih =>
    by_cases hrun : s.run = .running
    · obtain ⟨t, hstep⟩ := step_of_running hrun
      rw [Nat.succ_add, runSteps_of_step hrun hstep, runSteps_of_step hrun hstep, ih]
    · simp only [runSteps_of_ended hrun]

end Sys2Proof.Machine

namespace Sys2Proof

open Sys2Proof.Machine Sys2Proof.Claims

/-- Settles O9: an operand other than `none` has an address and a byte, and `operand_of_needs` says which ones those
are. -/
theorem everyNeededAddressResolves : Obligations.EveryNeededAddressResolves := by
  intro i s
  obtain ⟨haddress, hnothing⟩ := operand_of_needs i
  refine ⟨fun hneeds => ?_, fun hneeds => effectiveAddress_eq_none.mpr (hnothing hneeds)⟩
  obtain ⟨ea, hea⟩ := Option.ne_none_iff_exists'.mp (effectiveAddress_eq_none.not.mpr (haddress hneeds))
  obtain ⟨m, hm⟩ := Option.ne_none_iff_exists'.mp (operandByte_eq_none.not.mpr (haddress hneeds))
  exact ⟨ea, m, hea, hm⟩

/-- Settles O15: the three bytes are those `fetch` decodes. -/
theorem stepRunsTheDecodedInstruction : Obligations.StepRunsTheDecodedInstruction := by
  intro s i hrun hdecode
  exact step_of_fetch hrun hdecode

/-- Settles O20: of the effects, only BRK's touches the run state, and the fetch does not. -/
theorem onlyBrkHalts : Obligations.OnlyBrkHalts := by
  intro i s t h
  obtain rfl := effect_of_exec h
  refine ⟨fun hi => ?_, fun hi => ?_⟩
  · subst hi
    rfl
  · exact execute_run_other (mnemonic_eq_brk.not.mpr hi) ..

/-- Settles O23: the placed bytes are fetched again, and the run state is Running. -/
theorem placedInstructionRunsNext : Obligations.PlacedInstructionRunsNext := by
  intro s nbits w i h
  exact step_of_fetch (s.withFetchWord_run nbits w) (State.fetch_withFetchWord h s)

/-- Settles O28: the run of the added fuel starts from the state the first run reached. -/
theorem endedRunStaysEnded : Obligations.EndedRunStaysEnded := by
  intro n k s
  refine ⟨fun hend => ?_, fun t hrun hstep => ?_⟩
  · rw [State.runSteps_add, State.runSteps_of_ended hend]
  · rw [State.runSteps_add, State.runSteps_of_step hrun hstep]
    rfl

/-- Settles O55: neither the operand nor the effect depends on pc, and the fetch has moved it by the length. -/
theorem pcMovesPastTheInstruction : Obligations.PcMovesPastTheInstruction := by
  intro i s t h hi
  obtain rfl := effect_of_exec h
  have hm : i.mnemonic ∉ pcWriters := not_writesPc_iff.mp hi
  refine ⟨execute_pc hm .., fun pc => ?_⟩
  rw [exec_eq_effect, effect_withPc hm]
  exact congrArg _ (execute_withPc hm _ _ (s.afterFetch i.operand) (pc + BitVec.ofNat 16 i.length))

/-- Settles O56: the effect takes nothing from the instruction but its mnemonic, address and operand byte. -/
theorem modeOnlyDecidesTheAddress : Obligations.ModeOnlyDecidesTheAddress := by
  intro i j s u hm hea hbyte hstart
  rw [exec_eq_effect, exec_eq_effect, effect, effect, hm, hea, hbyte, hstart]

end Sys2Proof
end

section
/-! PROOFS. Arithmetic and logic (spec/41_arithmetic_logic.md R140 to R146). `AddWithCarry` is said once in exact
numbers; the frames come from the tables of writers, by one lemma for all instructions. -/

namespace Sys2Proof.Machine

open Sys2Proof.Claims

/-! ### Completion and frame of an instruction -/

theorem effect_of_operand {i : Instr} {s : State} {m : Byte} (hm : i.readOperand s = some m) :
    effect i s = execute i.mnemonic (i.ea s) m := by
  rw [effect, hm, Option.getD_some]

/-- An instruction that does not write pc completes; what holds of its effect then holds of the next state. -/
theorem completes_of_effect {i : Instr} {s : State} {P : State → Prop} (hi : i.mnemonic ∉ pcWriters)
    (h : P (effect i s (s.afterFetch i.operand))) : Completes i s P :=
  ⟨_, exec_eq_effect i s, execute_pc hi .., h⟩

theorem completes_mono {i : Instr} {s : State} {P Q : State → Prop} (h : Completes i s P) (hPQ : ∀ t, P t → Q t) :
    Completes i s Q := by
  obtain ⟨t, hexec, hpc, hP⟩ := h
  exact ⟨t, hexec, hpc, hPQ t hP⟩

/-- The frame of an instruction in the words of the statements: nothing changes outside what the tables list for its
mnemonic. BRK is apart, as it changes the run state. -/
theorem keptBut_effect {i : Instr} {s : State} {regs : List Reg} (hbrk : i.mnemonic ≠ .brk)
    (hregs : ∀ r, i.mnemonic ∈ writersOf r → r ∈ regs) (hacc : accumulatorShift i = true → .a ∈ regs) :
    KeptBut regs (flagsWritten i.mnemonic) (storedAt i s) s (effect i s (s.afterFetch i.operand)) where
  regs r hr := exec_reg_other (exec_eq_effect i s) (mt (hregs r) hr) fun ha =>
    Bool.eq_false_iff.mpr (mt hacc (ha ▸ hr))
  flags _ hf := execute_flag_other hf ..
  memory _ hk := exec_readByte_other (exec_eq_effect i s) hk
  run := execute_run_other hbrk ..

/-! ### The mnemonics that combine A with the operand byte -/

/-- The mnemonics that are an `AddWithCarry` (R141, R143). -/
def carryOps : List Mnemonic := [.adc, .sbc]

/-- The bitwise mnemonics (R144 to R146). -/
def logicOps : List Mnemonic := [.and, .ora, .eor]

/-- The mnemonics that combine A with the operand byte into A. -/
def accumulatorOps : List Mnemonic := carryOps ++ logicOps

theorem flagsWritten_of_carryOp : ∀ m ∈ carryOps, flagsWritten m = [.c, .z, .v, .n] := by decide

theorem flagsWritten_of_logicOp : ∀ m ∈ logicOps, flagsWritten m = [.z, .n] := by decide

theorem not_mem_pcWriters_of_accumulatorOp : ∀ m ∈ accumulatorOps, m ∉ pcWriters := by decide

theorem storedAt_of_accumulatorOp {i : Instr} (hi : i.mnemonic ∈ accumulatorOps) (s : State) : storedAt i s = [] := by
  simp only [accumulatorOps, carryOps, logicOps, List.mem_append, List.mem_cons, List.not_mem_nil, or_false,
    or_assoc] at hi
  obtain hi | hi | hi | hi | hi := hi <;> simp only [storedAt, hi]

/-- They write A, their flags, and nothing else. -/
theorem keptBut_of_accumulatorOp {i : Instr} (hi : i.mnemonic ∈ accumulatorOps) (s : State) :
    KeptBut [.a] (flagsWritten i.mnemonic) [] s (effect i s (s.afterFetch i.operand)) := by
  have hwriters : ∀ m ∈ accumulatorOps, m ∉ writersOf .x ∧ m ∉ writersOf .y ∧ m ∉ writersOf .sp := by decide
  obtain ⟨hx, hy, hsp⟩ := hwriters _ hi
  rw [← storedAt_of_accumulatorOp hi s]
  refine keptBut_effect (ne_of_mem_of_not_mem hi (by decide)) (fun r hr => ?_) fun _ => List.mem_singleton_self _
  cases r with
  | a => exact List.mem_singleton_self _
  | x => exact absurd hr hx
  | y => exact absurd hr hy
  | sp => exact absurd hr hsp

/-! ### `AddWithCarry` in exact numbers -/

/-- A + m + C, never wrapped. -/
def State.sumWithCarry (s : State) (m : Byte) : Nat := s.a.toNat + m.toNat + if s.flag .c then 1 else 0

theorem State.sumWithCarry_lt (s : State) (m : Byte) : s.sumWithCarry m < 2 ^ 16 := by
  rw [sumWithCarry]
  split <;> omega

/-- The 16-bit intermediate sum of R140 is the exact sum. -/
theorem State.wideSum_eq_ofNat (s : State) (m : Byte) :
    s.a.setWidth 16 + m.setWidth 16 + flagBit 16 (s.flag .c) = BitVec.ofNat 16 (s.sumWithCarry m) := by
  rw [sumWithCarry, flagBit]
  split <;> bv_omega

/-- What `AddWithCarry` writes, from the exact sum (R140). -/
theorem State.addWithCarry_eq (s : State) (m : Byte) :
    let r := BitVec.ofNat 8 (s.sumWithCarry m)
    s.addWithCarry m =
      (((s.setFlag .c (decide (255 < s.sumWithCarry m))).setFlag .v (addOverflow s.a m r)).withA r).setZN r := by
  have hr : (BitVec.ofNat 16 (s.sumWithCarry m)).setWidth 8 = BitVec.ofNat 8 (s.sumWithCarry m) :=
    BitVec.setWidth_ofNat_of_le (by decide) _
  have hsum : (BitVec.ofNat 16 (s.sumWithCarry m)).toNat = s.sumWithCarry m :=
    (BitVec.toNat_ofNat ..).trans (Nat.mod_eq_of_lt (s.sumWithCarry_lt m))
  rw [addWithCarry, wideSum_eq_ofNat, hr, setCarrySum, hsum]
  rfl

theorem State.addWithCarry_a (s : State) (m : Byte) : (s.addWithCarry m).a = BitVec.ofNat 8 (s.sumWithCarry m) := by
  rw [addWithCarry_eq]
  rfl

@[simp] theorem State.withA_flag (s : State) (v : Byte) (f : Flag) : (s.withA v).flag f = s.flag f := rfl

theorem State.addWithCarry_flag_c (s : State) (m : Byte) :
    (s.addWithCarry m).flag .c = true ↔ 255 < s.sumWithCarry m := by
  simp [addWithCarry_eq, setZN_flag, setFlag_flag]

theorem State.addWithCarry_flag_v (s : State) (m : Byte) :
    (s.addWithCarry m).flag .v = true ↔ addOverflow s.a m (BitVec.ofNat 8 (s.sumWithCarry m)) = true := by
  simp [addWithCarry_eq, setZN_flag, setFlag_flag]

theorem znFrom_addWithCarry (s : State) (m : Byte) : ZNFrom (s.addWithCarry m) (BitVec.ofNat 8 (s.sumWithCarry m)) := by
  rw [State.addWithCarry_eq]
  exact znFrom_setZN ..

/-! ### The overflow rule -/

theorem and_signBit_ne_zero_iff (b : Byte) : b &&& 0x80 ≠ 0 ↔ b.getLsbD 7 = true := by
  have h : b &&& 0x80 = if b.getLsbD 7 then 0x80 else 0 := BitVec.and_twoPow b 7
  rw [h]
  cases b.getLsbD 7 <;> decide

/-- The formula of V sees the three sign bits alone. -/
theorem overflowBits_iff (a m r : Byte) :
    (m ^^^ r) &&& (r ^^^ a) &&& 0x80 ≠ 0 ↔ a.getLsbD 7 = m.getLsbD 7 ∧ r.getLsbD 7 ≠ a.getLsbD 7 := by
  rw [and_signBit_ne_zero_iff, BitVec.getLsbD_and, BitVec.getLsbD_xor, BitVec.getLsbD_xor]
  cases a.getLsbD 7 <;> cases m.getLsbD 7 <;> cases r.getLsbD 7 <;> decide

theorem getLsbD_seven (b : Byte) : b.getLsbD 7 = decide (128 ≤ b.toNat) := BitVec.msb_eq_decide b

theorem toInt_of_byte (b : Byte) : b.toInt = b.toNat - if 128 ≤ b.toNat then 256 else 0 := by
  rw [BitVec.toInt_eq_toNat_cond]
  omega

/-- R140's derived reading of V: equal signs in and another sign out are a signed sum, carry included, out of range. -/
theorem signs_iff_signedSum_out_of_range (a m : Byte) {c : Nat} (hc : c ≤ 1) :
    a.getLsbD 7 = m.getLsbD 7 ∧ (BitVec.ofNat 8 (a.toNat + m.toNat + c)).getLsbD 7 ≠ a.getLsbD 7 ↔
      a.toInt + m.toInt + c < -128 ∨ 127 < a.toInt + m.toInt + c := by
  simp only [getLsbD_seven, ne_eq, decide_eq_decide, toInt_of_byte, BitVec.toNat_ofNat]
  omega

end Sys2Proof.Machine

namespace Sys2Proof

open Sys2Proof.Machine Sys2Proof.Claims

/-- What the statements say of ADC and SBC, from the one fact that the effect is `AddWithCarry(m)`. -/
theorem addsWithCarry_of_effect {i : Instr} {s : State} {m : Byte} (hi : i.mnemonic ∈ carryOps)
    (heffect : effect i s = fun u => u.addWithCarry m) : AddsWithCarry i s m := by
  have hop : i.mnemonic ∈ accumulatorOps := List.mem_append_left _ hi
  have hframe := keptBut_of_accumulatorOp hop s
  rw [flagsWritten_of_carryOp _ hi, heffect] at hframe
  refine completes_of_effect (not_mem_pcWriters_of_accumulatorOp _ hop) ?_
  rw [heffect]
  have hv := ((s.afterFetch i.operand).addWithCarry_flag_v m).trans bne_iff_ne
  have hsigns := hv.trans (overflowBits_iff ..)
  have hrange := signs_iff_signedSum_out_of_range s.a m (c := if s.flag .c then 1 else 0) (by split <;> decide)
  exact ⟨State.addWithCarry_a _ m, State.addWithCarry_flag_c _ m, hv, hsigns, hsigns.trans hrange,
    znFrom_addWithCarry _ m, hframe⟩

/-- Settles O29: ADC's effect is `AddWithCarry` of the operand byte. -/
theorem adcAddsWithCarry : Obligations.AdcAddsWithCarry := by
  intro i s m hi hm
  exact addsWithCarry_of_effect (by simp [hi, carryOps]) (by rw [effect_of_operand hm, hi]; rfl)

/-- Modulo 256 the sum with -m - 1 and C is the difference with the borrow 1 - C. -/
theorem ofNat_sum_complement (a m : Byte) (carry : Bool) :
    BitVec.ofNat 8 (a.toNat + (0 - m - 1).toNat + if carry then 1 else 0) = a - m - if carry then 0 else 1 := by
  simp only [BitVec.ofNat_add, BitVec.ofNat_toNat, BitVec.setWidth_eq]
  cases carry
  · change a + (0 - m - 1) + 0 = a - m - 1
    abel
  · change a + (0 - m - 1) + 1 = a - m - 0
    abel

/-- Settles O30: SBC's effect is `AddWithCarry` of the complement, 255 - m. The exact sum is then A + 255 - m + C, so it
exceeds 255 when nothing is borrowed. -/
theorem sbcSubtractsWithBorrow : Obligations.SbcSubtractsWithBorrow := by
  intro i s m hi hm
  have hadds : AddsWithCarry i s (0 - m - 1) :=
    addsWithCarry_of_effect (by simp [hi, carryOps]) (by rw [effect_of_operand hm, hi]; rfl)
  have hnot : 0 - m - 1 = ~~~m := by bv_omega
  have hsum : (0 - m - 1).toNat = 255 - m.toNat := hnot ▸ BitVec.toNat_not
  refine ⟨hadds, hnot, completes_mono hadds fun t ⟨ha, hc, _⟩ => ⟨?_, ha.trans (ofNat_sum_complement ..)⟩⟩
  rw [hc, hsum]
  split <;> omega

/-- What the statement says of the logic mnemonics, from the fact that the effect puts `op` of A and `m` in A. -/
theorem setsA_of_logicOp {i : Instr} {s : State} {m : Byte} {op : Byte → Byte → Byte} (hi : i.mnemonic ∈ logicOps)
    (heffect : effect i s = fun u => (u.withA (op u.a m)).setZN (op u.a m)) : SetsA i s (op s.a m) := by
  have hop : i.mnemonic ∈ accumulatorOps := List.mem_append_right _ hi
  have hframe := keptBut_of_accumulatorOp hop s
  rw [flagsWritten_of_logicOp _ hi, heffect] at hframe
  refine completes_of_effect (not_mem_pcWriters_of_accumulatorOp _ hop) ?_
  rw [heffect]
  exact ⟨rfl, znFrom_setZN .., hframe⟩

/-- Settles O31: the three effects differ in the operation only. -/
theorem logicCombinesIntoA : Obligations.LogicCombinesIntoA := by
  intro i s m hm
  refine ⟨fun hi => ?_, fun hi => ?_, fun hi => ?_⟩
  · exact setsA_of_logicOp (op := (· &&& ·)) (by simp [hi, logicOps]) (by rw [effect_of_operand hm, hi]; rfl)
  · exact setsA_of_logicOp (op := (· ||| ·)) (by simp [hi, logicOps]) (by rw [effect_of_operand hm, hi]; rfl)
  · exact setsA_of_logicOp (op := (· ^^^ ·)) (by simp [hi, logicOps]) (by rw [effect_of_operand hm, hi]; rfl)

end Sys2Proof
end

section
/-! PROOFS. Shifts and rotates (spec/42_shift_rotate.md R150 to R154). What R150's location operations leave is said once
for both kinds of location; the accumulator and the memory forms are its two readings. -/

namespace Sys2Proof.Machine

open Sys2Proof.Claims

/-! ### The operand location -/

theorem State.getLoc_setLoc_same (s : State) (l : Loc) (v : Byte) : (s.setLoc l v).getLoc l = v := by
  cases l with
  | accumulator => rfl
  | memoryAt addr => exact s.readByte_writeByte_same addr v

/-- Resolution and the fetch leave both kinds of location. -/
theorem State.getLoc_afterFetch (s : State) (op : Operand) (l : Loc) : (s.afterFetch op).getLoc l = s.getLoc l := by
  cases l <;> rfl

/-- The result reads back from the location it was written to: the flags are no location. -/
theorem getLoc_shiftLoc_same (l : Loc) (r : Byte) (carry : Bool) (s : State) :
    (shiftLoc l r carry s).getLoc l = r := by
  calc (shiftLoc l r carry s).getLoc l
    _ = (s.setLoc l r).getLoc l := by cases l <;> rfl
    _ = r := s.getLoc_setLoc_same l r

theorem shiftLoc_flag_c (l : Loc) (r : Byte) (carry : Bool) (s : State) :
    (shiftLoc l r carry s).flag .c = carry := by
  simp [shiftLoc, State.setZN_flag, State.setFlag_flag_same]

theorem znFrom_shiftLoc (l : Loc) (r : Byte) (carry : Bool) (s : State) : ZNFrom (shiftLoc l r carry s) r :=
  znFrom_setZN ..

/-! ### The frame of the four mnemonics -/

/-- The mnemonics that shift the byte at their location (R151 to R154). -/
def shiftOps : List Mnemonic := [.asl, .lsr, .rol, .ror]

theorem flagsWritten_of_shiftOp : ∀ m ∈ shiftOps, flagsWritten m = [.c, .z, .n] := by decide

theorem not_mem_pcWriters_of_shiftOp : ∀ m ∈ shiftOps, m ∉ pcWriters := by decide

/-- No row of R21 to R25 lists a shift but for its accumulator form. -/
theorem not_mem_writersOf_of_shiftOp (r : Reg) : ∀ m ∈ shiftOps, m ∉ writersOf r := by
  cases r <;> decide

theorem storedAt_of_shiftOp {i : Instr} (hi : i.mnemonic ∈ shiftOps) (s : State) :
    storedAt i s = (i.ea s).toList := by
  simp only [shiftOps, List.mem_cons, List.not_mem_nil, or_false] at hi
  obtain hi | hi | hi | hi := hi <;> simp only [storedAt, hi]

theorem ea_eq_none_of_accumulatorShift {i : Instr} (hi : accumulatorShift i = true) (s : State) : i.ea s = none := by
  obtain ⟨hop, _⟩ := Bool.and_eq_true_iff.mp hi
  exact effectiveAddress_eq_none.mpr (beq_iff_eq.mp hop)

/-- They write C, Z, N, the resolved address if there is one, and A if there is none. -/
theorem keptBut_of_shiftOp {i : Instr} {s : State} {regs : List Reg} (hi : i.mnemonic ∈ shiftOps)
    (hacc : i.ea s = none → .a ∈ regs) :
    KeptBut regs [.c, .z, .n] (i.ea s).toList s (effect i s (s.afterFetch i.operand)) := by
  rw [← flagsWritten_of_shiftOp _ hi, ← storedAt_of_shiftOp hi s]
  refine keptBut_effect (ne_of_mem_of_not_mem hi (by decide)) (fun r hr => ?_) fun h => ?_
  · exact absurd hr (not_mem_writersOf_of_shiftOp r _ hi)
  · exact hacc (ea_eq_none_of_accumulatorShift h s)

end Sys2Proof.Machine

namespace Sys2Proof

open Sys2Proof.Machine Sys2Proof.Claims

/-- A shift or rotate whose effect is the common tail at the location `l` completes, with the result read back there. -/
theorem completes_of_shiftLoc {i : Instr} {s : State} {l : Loc} {r : Byte} {carry : Bool} {regs : List Reg}
    (hi : i.mnemonic ∈ shiftOps) (hacc : i.ea s = none → .a ∈ regs)
    (heffect : effect i s (s.afterFetch i.operand) = shiftLoc l r carry (s.afterFetch i.operand)) :
    Completes i s fun t =>
      t.getLoc l = r ∧ t.flag .c = carry ∧ ZNFrom t r ∧ KeptBut regs [.c, .z, .n] (i.ea s).toList s t := by
  have hframe := keptBut_of_shiftOp hi hacc
  rw [heffect] at hframe
  refine completes_of_effect (not_mem_pcWriters_of_shiftOp _ hi) ?_
  rw [heffect]
  exact ⟨getLoc_shiftLoc_same .., shiftLoc_flag_c .., znFrom_shiftLoc .., hframe⟩

/-- What the statements say of a shift or rotate, from the one fact that its effect is the common tail on the result and
carry of the byte at its location. -/
theorem shifts_of_effect {i : Instr} {s : State} {r : Byte → Byte} {carry : Byte → Bool} (hi : i.mnemonic ∈ shiftOps)
    (heffect : let l := locOf (i.ea s)
      let u := s.afterFetch i.operand
      effect i s u = shiftLoc l (r (u.getLoc l)) (carry (u.getLoc l)) u) : Shifts i s r carry := by
  simp only [State.getLoc_afterFetch] at heffect
  refine ⟨fun hea => ?_, fun ea hea => ?_⟩
  · rw [hea] at heffect
    have haccumulator := completes_of_shiftLoc (regs := [.a]) hi (fun _ => List.mem_singleton_self _) heffect
    rwa [hea] at haccumulator
  · rw [hea] at heffect
    have hmemory := completes_of_shiftLoc (regs := []) hi (by simp [hea]) heffect
    rwa [hea] at hmemory

/-- Settles O32: the four effects differ in the result and the carry alone, and the fetch leaves the C the rotates shift
in. -/
theorem shiftsAndRotates : Obligations.ShiftsAndRotates := by
  intro i s c
  refine ⟨fun hi => ?_, fun hi => ?_, fun hi => ?_, fun hi => ?_⟩
  all_goals exact shifts_of_effect (by simp [hi, shiftOps]) (by rw [effect, hi]; rfl)

end Sys2Proof
end

section
/-! PROOFS. Compares, increments and decrements (spec/43_compare_incdec.md R160 to R169). Each effect is one or two
operations of the state, so its frame is the frames of those operations one after the other. -/

namespace Sys2Proof.Machine

open Sys2Proof.Claims

/-! ### Frames of one operation after another -/

theorem keptBut_trans {regs regs' : List Reg} {flags flags' : List Flag} {addrs addrs' : List Addr} {s t u : State}
    (hst : KeptBut regs flags addrs s t) (htu : KeptBut regs' flags' addrs' t u) :
    KeptBut (regs ++ regs') (flags ++ flags') (addrs ++ addrs') s u where
  regs r hr := by
    obtain ⟨h, h'⟩ : r ∉ regs ∧ r ∉ regs' := by simpa using hr
    exact (htu.regs r h').trans (hst.regs r h)
  flags f hf := by
    obtain ⟨h, h'⟩ : f ∉ flags ∧ f ∉ flags' := by simpa using hf
    exact (htu.flags f h').trans (hst.flags f h)
  memory k hk := by
    obtain ⟨h, h'⟩ : k ∉ addrs ∧ k ∉ addrs' := by simpa using hk
    exact (htu.memory k h').trans (hst.memory k h)
  run := htu.run.trans hst.run

theorem keptBut_afterFetch (s : State) (op : Operand) : KeptBut [] [] [] s (s.afterFetch op) where
  regs r _ := by cases r <;> rfl
  flags _ _ := rfl
  memory _ _ := rfl
  run := rfl

theorem reg_withReg_other (s : State) {r q : Reg} (v : Byte) (h : q ≠ r) : reg (s.withReg r v) q = reg s q := by
  cases r <;> cases q <;> simp at h <;> rfl

theorem keptBut_withReg (s : State) (r : Reg) (v : Byte) : KeptBut [r] [] [] s (s.withReg r v) where
  regs _ hq := reg_withReg_other s v (by simpa using hq)
  flags f _ := s.withReg_flag r v f
  memory _ _ := by cases r <;> rfl
  run := by cases r <;> rfl

theorem keptBut_writeByte (s : State) (addr : Addr) (v : Byte) : KeptBut [] [] [addr] s (s.writeByte addr v) where
  regs r _ := by cases r <;> rfl
  flags _ _ := rfl
  memory _ hk := s.readByte_writeByte_other v (by simpa using hk)
  run := rfl

/-! ### `Compare` -/

theorem State.compare_flag_c (s : State) (register m : Byte) :
    (s.compare register m).flag .c = true ↔ m.toNat ≤ register.toNat := by
  simp [compare, setZN_flag, setFlag_flag]

theorem znFrom_compare (s : State) (register m : Byte) : ZNFrom (s.compare register m) (register - m) :=
  znFrom_setZN ..

/-- R160's derived reading of Z: the difference is zero modulo 256 for equal bytes alone. -/
theorem State.compare_flag_z (s : State) (register m : Byte) :
    (s.compare register m).flag .z = true ↔ register = m := by
  obtain ⟨hz, _⟩ := znFrom_compare s register m
  exact hz.trans sub_eq_zero

theorem keptBut_compare (s : State) (register m : Byte) : KeptBut [] [.c, .z, .n] [] s (s.compare register m) :=
  keptBut_trans (keptBut_setFlag s .c _) (keptBut_setZN _ _)

end Sys2Proof.Machine

namespace Sys2Proof

open Sys2Proof.Machine Sys2Proof.Claims

/-- What the statement says of CMP, CPX and CPY, from the one fact that the effect is `Compare(register, m)`. -/
theorem compares_of_effect {i : Instr} {s : State} {register m : Byte} (hi : i.mnemonic ∉ pcWriters)
    (heffect : effect i s (s.afterFetch i.operand) = (s.afterFetch i.operand).compare register m) :
    Compares i s register m := by
  refine completes_of_effect hi ?_
  rw [heffect]
  exact ⟨State.compare_flag_c .., State.compare_flag_z .., znFrom_compare ..,
    keptBut_trans (keptBut_afterFetch ..) (keptBut_compare ..)⟩

/-- Settles O33: the three effects differ in the register alone, which the fetch leaves. -/
theorem comparesSetFlagsOnly : Obligations.ComparesSetFlagsOnly := by
  intro i s m hm
  refine ⟨fun hi => ?_, fun hi => ?_, fun hi => ?_⟩
  all_goals exact compares_of_effect (by simp [hi, pcWriters]) (by rw [effect_of_operand hm, hi]; rfl)

/-- What the statement says of INC and DEC, from the one fact that the effect writes `r` and sets Z and N of it. -/
theorem writesBack_of_effect {i : Instr} {s : State} {ea : Addr} {r : Byte} (hi : i.mnemonic ∉ pcWriters)
    (heffect : effect i s (s.afterFetch i.operand) = ((s.afterFetch i.operand).writeByte ea r).setZN r) :
    Completes i s fun t => t.readByte ea = r ∧ ZNFrom t r ∧ KeptBut [] [.z, .n] [ea] s t := by
  refine completes_of_effect hi ?_
  rw [heffect]
  have hwrite := keptBut_trans (keptBut_afterFetch s i.operand) (keptBut_writeByte _ ea r)
  exact ⟨State.readByte_writeByte_same .., znFrom_setZN .., keptBut_trans hwrite (keptBut_setZN ..)⟩

/-- Settles O34: the two effects differ in the byte written, made of the byte at the address, which the fetch leaves. -/
theorem incAndDecWriteMemory : Obligations.IncAndDecWriteMemory := by
  intro i s ea hea
  refine ⟨fun hi => ?_, fun hi => ?_⟩
  all_goals exact writesBack_of_effect (by simp [hi, pcWriters]) (by rw [effect, hi, hea]; rfl)

/-- What the statements say of a mnemonic that puts a result in a byte register and sets Z and N of it. -/
theorem setsReg_of_effect {i : Instr} {s : State} {r : Reg} {v : Byte} (hi : i.mnemonic ∉ pcWriters)
    (heffect : effect i s (s.afterFetch i.operand) = ((s.afterFetch i.operand).withReg r v).setZN v) :
    Completes i s fun t => reg t r = v ∧ ZNFrom t v ∧ KeptBut [r] [.z, .n] [] s t := by
  refine completes_of_effect hi ?_
  rw [heffect]
  have hreg : reg (((s.afterFetch i.operand).withReg r v).setZN v) r = v := by cases r <;> rfl
  have hwrite := keptBut_trans (keptBut_afterFetch s i.operand) (keptBut_withReg _ r v)
  exact ⟨hreg, znFrom_setZN .., keptBut_trans hwrite (keptBut_setZN ..)⟩

/-- Settles O35: each effect puts the register's next or previous value in it. -/
theorem indexRegistersCount : Obligations.IndexRegistersCount := by
  intro s
  exact ⟨setsReg_of_effect (r := .x) (by decide) rfl, setsReg_of_effect (r := .y) (by decide) rfl,
    setsReg_of_effect (r := .x) (by decide) rfl, setsReg_of_effect (r := .y) (by decide) rfl⟩

end Sys2Proof
end

section
/-! PROOFS. Conditional branches (spec/44_branch.md R175 to R183). `Branch(cond)` writes pc alone, and its target is the
Relative address of R91, which is why the eight instructions differ in their flag and its wanted value only. -/

namespace Sys2Proof.Machine

open Sys2Proof.Claims

theorem State.branch_pc (s : State) (f : Flag) (want : Bool) (ea : Addr) :
    (s.branch f want ea).pc = if s.flag f = want then ea else s.pc := by
  obtain ⟨hflag, h⟩ | ⟨hflag, h⟩ := s.branch_cases f want ea
  · rw [h, if_pos hflag, withPc_pc]
  · rw [h, if_neg hflag]

theorem keptBut_branch (s : State) (f : Flag) (want : Bool) (ea : Addr) : KeptBut [] [] [] s (s.branch f want ea) where
  regs r _ := s.reg_branch r f want ea
  flags g _ := s.branch_flag f g want ea
  memory k _ := State.readByte_congr (s.branch_mem f want ea) k
  run := s.run_branch f want ea

/-- R91 from the opcode's address: the displacement counts from the address after the two bytes. -/
theorem ea_of_relative {i : Instr} {d : Byte} (hop : i.operand = .relative d) (s : State) :
    i.ea s = some (s.pc + 2 + d.signExtend 16) := by
  have htwo : s.pc + 1 + 1 = s.pc + 2 := BitVec.add_assoc s.pc 1 1
  rw [← htwo, Instr.ea, hop]
  rfl

end Sys2Proof.Machine

namespace Sys2Proof

open Sys2Proof.Machine Sys2Proof.Claims

/-- What the statement says of a Relative instruction, from the one fact that its effect is `Branch` on a flag. -/
theorem branchesTo_of_execute {i : Instr} {s : State} {d : Byte} {f : Flag} {want taken : Bool}
    (hop : i.operand = .relative d)
    (hexecute : ∀ ea byte t, execute i.mnemonic ea byte t = t.branch f want (ea.getD 0))
    (htaken : taken = true ↔ s.flag f = want) : BranchesTo i s d taken := by
  refine ⟨_, exec_eq_effect i s, ?_⟩
  rw [effect, hexecute, ea_of_relative hop, Option.getD_some, hop]
  refine ⟨?_, keptBut_trans (keptBut_afterFetch ..) (keptBut_branch ..)⟩
  have hflag : (s.afterFetch (.relative d)).flag f = s.flag f := rfl
  have hnext : (s.afterFetch (.relative d)).pc = s.pc + 2 := rfl
  simp only [State.branch_pc, hflag, hnext, htaken]

/-- Settles O36: each branch is `Branch` on its own flag, taken at the value the statement names. -/
theorem branchesFollowTheirFlag : Obligations.BranchesFollowTheirFlag := by
  intro s d
  refine ⟨?_, ?_, ?_, ?_, ?_, ?_, ?_, ?_⟩
  all_goals exact branchesTo_of_execute rfl (fun _ _ _ => rfl) (by simp)

end Sys2Proof
end

section
/-! PROOFS. Flag set and clear (spec/45_flag.md R190 to R196). Each effect is one `setFlag`, so the seven instructions
differ in their flag and its value only. -/

namespace Sys2Proof

open Sys2Proof.Machine Sys2Proof.Claims

/-- What the statement says of a flag instruction, from the one fact that its effect is `setFlag`. -/
theorem writesFlag_of_effect {i : Instr} {s : State} {f : Flag} {on : Bool} (hi : i.mnemonic ∉ pcWriters)
    (heffect : effect i s (s.afterFetch i.operand) = (s.afterFetch i.operand).setFlag f on) : WritesFlag i s f on := by
  refine completes_of_effect hi ?_
  rw [heffect]
  exact ⟨State.setFlag_flag_same .., keptBut_trans (keptBut_afterFetch ..) (keptBut_setFlag ..)⟩

/-- Settles O37: each effect is `setFlag` on the instruction's own flag, at the value the statement names. -/
theorem flagInstructionsWriteOneFlag : Obligations.FlagInstructionsWriteOneFlag := by
  intro s
  refine ⟨?_, ?_, ?_, ?_, ?_, ?_, ?_⟩
  all_goals exact writesFlag_of_effect (by decide) rfl

end Sys2Proof
end

section
/-! PROOFS. Loads, stores and transfers (spec/46_load_store_transfer.md R200 to R211). A load and a transfer put a byte in
one register, a store writes a register to one address; only where the byte comes from differs. -/

namespace Sys2Proof

open Sys2Proof.Machine Sys2Proof.Claims

/-- What the statement says of a store, from the one fact that the effect writes `v` at the resolved address. -/
theorem stores_of_effect {i : Instr} {s : State} {v : Byte} (hi : i.mnemonic ∉ pcWriters)
    (heffect : effect i s (s.afterFetch i.operand) = (s.afterFetch i.operand).writeByte ((i.ea s).getD 0) v) :
    Stores i s v := by
  intro ea hea
  rw [hea, Option.getD_some] at heffect
  refine completes_of_effect hi ?_
  rw [heffect]
  exact ⟨State.readByte_writeByte_same .., keptBut_trans (keptBut_afterFetch ..) (keptBut_writeByte ..)⟩

/-- Settles O39: the three effects differ in the register stored, which the fetch leaves. -/
theorem storesWriteOneByte : Obligations.StoresWriteOneByte := by
  intro i s
  refine ⟨fun hi => ?_, fun hi => ?_, fun hi => ?_⟩
  all_goals exact stores_of_effect (by simp [hi, pcWriters]) (by rw [effect, hi]; rfl)

/-- Settles O38: each effect puts the operand byte in its own register. -/
theorem loadsSetTheirRegister : Obligations.LoadsSetTheirRegister := by
  intro i s m hm
  refine ⟨fun hi => ?lda, fun hi => ?ldx, fun hi => ?ldy⟩
  case lda => exact setsReg_of_effect (r := .a) (by simp [hi, pcWriters]) (by rw [effect_of_operand hm, hi]; rfl)
  case ldx => exact setsReg_of_effect (r := .x) (by simp [hi, pcWriters]) (by rw [effect_of_operand hm, hi]; rfl)
  case ldy => exact setsReg_of_effect (r := .y) (by simp [hi, pcWriters]) (by rw [effect_of_operand hm, hi]; rfl)

/-- TXS is a register write without `SetZN` (R211), so no flag stands in its frame. -/
theorem txs_copies_x_to_sp (s : State) :
    Completes .txs s fun t => t.sp = s.x ∧ KeptBut [.sp] [] [] s t :=
  completes_of_effect (by decide) ⟨rfl, keptBut_trans (keptBut_afterFetch s .none) (keptBut_withReg _ .sp s.x)⟩

/-- Settles O40: five effects put the source in the target and set Z and N of it, the sixth is the bare copy. -/
theorem transfersCopyRegisters : Obligations.TransfersCopyRegisters := by
  intro s
  exact ⟨setsReg_of_effect (r := .x) (by decide) rfl, setsReg_of_effect (r := .y) (by decide) rfl,
    setsReg_of_effect (r := .a) (by decide) rfl, setsReg_of_effect (r := .a) (by decide) rfl,
    setsReg_of_effect (r := .x) (by decide) rfl, txs_copies_x_to_sp s⟩

end Sys2Proof
end

section
/-! PROOFS. Stack pushes and pulls (spec/47_stack.md R220 to R223). What the stack instructions leave unchanged is read off
the tables of writers, by one lemma for those that move SP and write no other byte register. -/

namespace Sys2Proof.Machine

open Sys2Proof.Claims

/-- The stack instructions that write no byte register but SP and do not end the run: PLA and BRK apart. -/
def spMovers : List Mnemonic := [.pha, .php, .plp, .jsr, .rts, .rti]

theorem mnemonic_mem_shiftOps {i : Instr} (hi : accumulatorShift i = true) : i.mnemonic ∈ shiftOps := by
  obtain ⟨_, hm⟩ := Bool.and_eq_true_iff.mp hi
  simpa [shiftOps] using hm

theorem keptBut_of_spMover {i : Instr} (hi : i.mnemonic ∈ spMovers) (s : State) :
    KeptBut [.sp] (flagsWritten i.mnemonic) (storedAt i s) s (effect i s (s.afterFetch i.operand)) := by
  have hwriters : ∀ m ∈ spMovers, m ∉ writersOf .a ∧ m ∉ writersOf .x ∧ m ∉ writersOf .y := by decide
  have hshift : ∀ m ∈ spMovers, m ∉ shiftOps := by decide
  obtain ⟨ha, hx, hy⟩ := hwriters _ hi
  refine keptBut_effect (ne_of_mem_of_not_mem hi (by decide)) (fun r hr => ?_) fun hacc => ?_
  · cases r with
    | a => exact absurd hr ha
    | x => exact absurd hr hx
    | y => exact absurd hr hy
    | sp => exact List.mem_singleton_self _
  · exact absurd (mnemonic_mem_shiftOps hacc) (hshift _ hi)

/-- PLA writes A beside SP, so its frame is read off the tables by itself. -/
theorem keptBut_pla (s : State) :
    KeptBut [.a, .sp] [.z, .n] [] s (effect .pla s (s.afterFetch .none)) :=
  keptBut_effect (i := .pla) (by decide) (fun r => by cases r <;> decide) (by decide)

end Sys2Proof.Machine

namespace Sys2Proof

open Sys2Proof.Machine Sys2Proof.Claims

/-- What the statement says of PHA and PHP, from the one fact that the effect is `Push8(v)`. -/
theorem pushes_of_effect {i : Instr} {s : State} {v : Byte} (hi : i.mnemonic ∉ pcWriters)
    (heffect : effect i s (s.afterFetch i.operand) = (s.afterFetch i.operand).push8 v) : Pushes i s v := by
  refine completes_of_effect hi ?_
  rw [heffect]
  exact ⟨State.readByte_writeByte_same .., rfl,
    keptBut_trans (keptBut_afterFetch ..) (keptBut_push8 (s.afterFetch i.operand) v)⟩

/-- Settles O41: the two effects push A and P as the fetch left them, which is as they were. -/
theorem pushesStoreTheirByte : Obligations.PushesStoreTheirByte := by
  intro s
  exact ⟨pushes_of_effect (by decide) rfl, pushes_of_effect (by decide) rfl⟩

/-- Settles O42: both pull the byte below SP; PLA sets Z and N of it as a load does, PLP makes it the whole status. -/
theorem pullsReadTheByteBelowSp : Obligations.PullsReadTheByteBelowSp := by
  intro s m
  refine ⟨completes_of_effect (by decide) ?pla, completes_of_effect (by decide) ?plp⟩
  case pla => exact ⟨rfl, rfl, znFrom_setZN .., keptBut_pla s⟩
  case plp => exact ⟨rfl, fun _ => rfl, rfl, keptBut_of_spMover (i := .plp) (by decide) s⟩

end Sys2Proof
end

section
/-! PROOFS. Jumps and subroutines (spec/48_jump_subroutine.md R230 to R232): the whole next state of each instruction, and
RTS after JSR as a word popped after it was pushed. -/

namespace Sys2Proof.Machine

open Sys2Proof.Claims

theorem exec_jsr (addr : Addr) (s : State) :
    exec (.jsr addr) s = .next (((s.advancePc 3).push16 (s.pc + 3)).withPc addr) := rfl

theorem exec_rts (s : State) : exec .rts s = .next (s.pop16.2.withPc s.pop16.1) := rfl

theorem exec_jmpAbs (addr : Addr) (s : State) : exec (.jmpAbs addr) s = .next (s.withPc addr) := rfl

theorem exec_jmpInd (ptr : Addr) (s : State) : exec (.jmpInd ptr) s = .next (s.withPc (s.readWord ptr)) := rfl

/-- A pop does not look at pc. -/
theorem State.pop16_withPc_fst (s : State) (pc : Addr) : (s.withPc pc).pop16.1 = s.pop16.1 := rfl

theorem keptBut_withPc (s : State) (pc : Addr) : KeptBut [] [] [] s (s.withPc pc) where
  regs r _ := by cases r <;> rfl
  flags _ _ := rfl
  memory _ _ := rfl
  run := rfl

end Sys2Proof.Machine

namespace Sys2Proof

open Sys2Proof.Machine Sys2Proof.Claims

/-- Settles O43: the pushed word is pc after the fetch (D10), and the jump leaves the stack. -/
theorem jsrPushesTheReturnAddress : Obligations.JsrPushesTheReturnAddress := by
  intro s addr
  exact ⟨_, exec_jsr addr s, rfl, rfl, State.readByte_writeWord_low .., State.readByte_writeWord_high ..,
    keptBut_of_spMover (i := .jsr addr) (by simp [Instr.mnemonic, spMovers]) s⟩

/-- Settles O44: the popped word is `hi :: lo`, and pc is that word. -/
theorem rtsPopsThePc : Obligations.RtsPopsThePc := by
  intro s
  exact ⟨_, exec_rts s, rfl, rfl, keptBut_of_spMover (i := .rts) (by decide) s⟩

/-- Settles O45: the two forms differ in where the new pc comes from. -/
theorem jmpSetsThePc : Obligations.JmpSetsThePc := by
  intro s addr
  exact ⟨⟨_, exec_jmpAbs addr s, rfl, keptBut_withPc ..⟩, ⟨_, exec_jmpInd addr s, rfl, keptBut_withPc ..⟩⟩

/-- Settles O50: neither the jump nor a later pc touches the stack, so the pop of RTS undoes the push of JSR. -/
theorem rtsReturnsAfterJsr : Obligations.RtsReturnsAfterJsr := by
  intro s t addr pc h
  cases (exec_jsr addr s).symm.trans h
  refine ⟨_, exec_rts _, ?pc, ?sp, ?p, ?a⟩
  case pc => rw [State.withPc_pc, State.pop16_withPc_fst, State.pop16_withPc_fst, State.pop16_push16]
  all_goals simp

end Sys2Proof
end

section
/-! PROOFS. Break, return from interrupt, bit test, no-op (spec/49_interrupt_misc.md R240 to R243) and RTI as the inverse of
BRK (spec/60_exceptions.md R255, R257). -/

namespace Sys2Proof.Machine

open Sys2Proof.Claims

theorem exec_brk (s : State) : exec .brk s = .next (semBrk (s.advancePc 1)) := rfl

/-- pc is pulled, so the fetch's advance of pc does not show. -/
theorem exec_rti (s : State) : exec .rti s = .next s.returnFromBreak := rfl

theorem semBrk_flag (s : State) (f : Flag) : (semBrk s).flag f = if f = .b ∨ f = .b2 then true else s.flag f := by
  simp only [State.flag, semBrk, State.halt_eq, State.withRun_p, State.enterBreak_p, flagOf_putFlag]
  split <;> split <;> simp_all

/-! The three bytes BRK pushes lie at different addresses, so each reads back. -/

theorem readByte_semBrk_low (s : State) : (semBrk s).readByte (stackAddr s.sp) = lowByte s.pc := by
  obtain ⟨hlow, _⟩ := stackAddr_add_two_ne s.sp
  rw [readByte_semBrk, if_neg hlow.symm, if_neg (addr_succ_ne _).symm, if_pos rfl]

theorem readByte_semBrk_high (s : State) : (semBrk s).readByte (stackAddr s.sp + 1) = highByte s.pc := by
  obtain ⟨_, hhigh⟩ := stackAddr_add_two_ne s.sp
  rw [readByte_semBrk, if_neg hhigh.symm, if_pos rfl]

theorem readByte_semBrk_status (s : State) : (semBrk s).readByte (stackAddr (s.sp + 2)) = s.p := by
  rw [readByte_semBrk, if_pos rfl]

/-- The vector is read after the pushes, in the memory that BRK leaves. -/
theorem semBrk_pc (s : State) : (semBrk s).pc = (semBrk s).readWord breakVector := by
  rw [semBrk, State.halt_eq, State.withRun_pc, State.enterBreak_pc]
  exact (State.readWord_congr s.enterBreak_mem breakVector).symm

/-- BRK's pushes never reach the interrupt vector. -/
theorem not_mem_breakSlots {k : Addr} (hk : 0xFFFE ≤ k.toNat) (sp : Byte) :
    k ∉ [stackAddr sp, stackAddr sp + 1, stackAddr (sp + 2)] := fun hmem => by
  obtain ⟨_, hle⟩ := stackSlot_range hmem
  omega

theorem keptBut_semBit (m : Byte) (s : State) : KeptBut [] [.z, .v, .n] [] s (semBit m s) :=
  keptBut_trans (keptBut_trans (keptBut_setFlag s .z _) (keptBut_setFlag _ .v _)) (keptBut_setFlag _ .n _)

end Sys2Proof.Machine

namespace Sys2Proof

open Sys2Proof.Machine Sys2Proof.Claims

/-- Settles O46: the three slots differ and none of them is a byte of the vector; B and B2 are set after P was pushed. -/
theorem brkTakesTheTrapAndHalts : Obligations.BrkTakesTheTrapAndHalts := by
  intro s
  refine ⟨_, exec_brk s, ?low, ?high, ?status, ?sp, ?pc, ?b, ?b2, ?flags, ?regs, ?memory, rfl⟩
  case low => exact readByte_semBrk_low (s.advancePc 1)
  case high => exact readByte_semBrk_high (s.advancePc 1)
  case status => exact readByte_semBrk_status (s.advancePc 1)
  case sp => exact BitVec.add_assoc s.sp 2 1
  case pc =>
    have hvector (k : Addr) (hk : 0xFFFE ≤ k.toNat) : (semBrk (s.advancePc 1)).readByte k = s.readByte k :=
      exec_readByte_other (exec_brk s) (not_mem_breakSlots hk s.sp)
    rw [semBrk_pc, State.readWord, hvector breakVector (by decide), hvector (breakVector + 1) (by decide)]
    rfl
  case b => rw [semBrk_flag, if_pos (.inl rfl)]
  case b2 => rw [semBrk_flag, if_pos (.inr rfl)]
  case flags =>
    intro f hb hb2
    rw [semBrk_flag, if_neg (by simp [hb, hb2])]
    rfl
  case regs =>
    intro r hr
    exact exec_reg_other (exec_brk s) (by cases r <;> simp [Instr.mnemonic, writersOf] at hr ⊢) fun _ => rfl
  case memory => exact fun _ hk => exec_readByte_other (exec_brk s) hk

/-- Settles O47: P comes from the first pull, pc from the second, two slots further down. -/
theorem rtiRestoresStatusAndPc : Obligations.RtiRestoresStatusAndPc := by
  intro s
  have hsp : s.sp - 1 - 2 = s.sp - 3 := BitVec.sub_sub ..
  refine ⟨_, exec_rti s, s.returnFromBreak_p, ?_, ?_, keptBut_of_spMover (i := .rti) (by decide) s⟩
  · rw [State.returnFromBreak_pc, hsp]
    rfl
  · rw [State.returnFromBreak_sp, hsp]

/-- Settles O51: O47 read in the state O46 describes: RTI's two pulls are at the slots BRK pushed to. -/
theorem rtiUndoesBrk : Obligations.RtiUndoesBrk := by
  intro s t pc h
  obtain ⟨_, hbrk, hlow, hhigh, hp, hsp, _, _, _, _, hregs, _, _⟩ := brkTakesTheTrapAndHalts s
  cases hbrk.symm.trans h
  obtain ⟨u, hrti, hup, hupc, husp, hkept⟩ := rtiRestoresStatusAndPc ((t.withPc pc).withRun .running)
  have hreg (r : Reg) (hr : r ≠ .sp) : reg u r = reg s r :=
    (hkept.regs r (by simpa using hr)).trans (hregs r hr)
  have hstatus : t.sp - 1 = s.sp + 2 := by rw [hsp]; bv_omega
  have hword : t.sp - 3 = s.sp := by rw [hsp]; bv_omega
  refine ⟨u, hrti, ?status, ?pc, husp.trans hword, hreg .a (by decide), hreg .x (by decide), hreg .y (by decide),
    hkept.run⟩
  case status =>
    calc u.p
      _ = t.readByte (stackAddr (t.sp - 1)) := hup
      _ = s.p := by rw [hstatus, hp]
  case pc =>
    calc u.pc
      _ = wordOf (t.readByte (stackAddr (t.sp - 3))) (t.readByte (stackAddr (t.sp - 3) + 1)) := hupc
      _ = wordOf (lowByte (s.pc + 1)) (highByte (s.pc + 1)) := by rw [hword, hlow, hhigh]; rfl
      _ = s.pc + 1 := wordOf_low_high _

/-- Settles O48: three flag writes, of which none covers another. -/
theorem bitTestsWithoutWritingA : Obligations.BitTestsWithoutWritingA := by
  intro i s m hi hm
  refine completes_of_effect (by simp [hi, pcWriters]) ?_
  have heffect : effect i s (s.afterFetch i.operand) = semBit m (s.afterFetch i.operand) := by
    rw [effect_of_operand hm, hi]
    rfl
  rw [heffect]
  refine ⟨?_, ?_, ?_, keptBut_trans (keptBut_afterFetch ..) (keptBut_semBit ..)⟩
  all_goals simp [semBit, State.setFlag_flag]

/-- Settles O49: the effect is the identity after the fetch of one byte. -/
theorem nopOnlyMovesThePc : Obligations.NopOnlyMovesThePc := fun _ => rfl

end Sys2Proof
end

section
/-! PROOFS. The ends of a step (spec/60_exceptions.md R250 to R253; spec/40_execution_core.md R123, R125). -/

namespace Sys2Proof.Machine

theorem step_of_undefined {s : State} {op : Byte} (hrun : s.run = .running)
    (hfetch : s.fetch = .error (.undefinedCode op)) : step s = .next (s.unrecognized op) := by
  simp only [step, hrun, hfetch]

end Sys2Proof.Machine

namespace Sys2Proof

open Sys2Proof.Machine Sys2Proof.Claims

/-- Settles O16: the fetch of such a code is refused, and the step then writes pc and the run state alone. -/
theorem undefinedCodeFaultsTheRun : Obligations.UndefinedCodeFaultsTheRun := by
  intro s hrun hop
  have hfetch : s.fetch = .error (.undefinedCode (s.readByte s.pc)) := (undefinedCodesAreRefused ..).mpr hop
  exact ⟨_, step_of_undefined hrun hfetch, rfl, rfl, rfl, rfl, rfl, rfl, rfl, rfl⟩

/-- Settles O17: NoneAddressing yields neither an address nor a byte. -/
theorem missingOperandFaultsTheRun : Obligations.MissingOperandFaultsTheRun := fun _ _ _ _ => ⟨rfl, rfl⟩

/-- Settles O19: an instruction always completes, and by O20 only BRK's effect touches the run state; the decoder names
the code it refuses. -/
theorem everyRunningStepHasANextState : Obligations.EveryRunningStepHasANextState := by
  intro s hrun
  obtain ⟨t, hnext⟩ := step_of_running hrun
  refine ⟨t, hnext, ?_⟩
  cases hfetch : s.fetch with
  | ok i =>
    obtain ⟨hbrk, hother⟩ := onlyBrkHalts i s t ((step_of_fetch hrun hfetch).symm.trans hnext)
    by_cases hi : i = .brk
    · exact .inr (.inl ⟨hbrk hi, by rw [hi]⟩)
    · exact .inl ((hother hi).trans hrun)
  | error e =>
    obtain rfl := decode_error hfetch
    cases (step_of_undefined hrun hfetch).symm.trans hnext
    exact .inr (.inr ⟨rfl, rfl⟩)

end Sys2Proof
end

section
/-! PROOFS. Reset and load (spec/70_reset_and_hazards.md R280 to R287): the vector is written last, so it holds the origin
whatever the program covers. -/

namespace Sys2Proof.Machine

theorem State.readByte_loadAt_other (s : State) (origin : Addr) (bytes : List Byte) {k : Addr} (hlow : k ≠ 0xFFFC)
    (hhigh : k ≠ 0xFFFD) : (s.loadAt origin bytes).readByte k = (s.copyBytes origin bytes).readByte k :=
  State.readByte_writeWord_other _ origin hlow hhigh

theorem State.loadAt_eq_withMem (s : State) (origin : Addr) (bytes : List Byte) :
    s.loadAt origin bytes = s.withMem (s.loadAt origin bytes).mem := by
  calc s.loadAt origin bytes
    _ = (s.copyBytes origin bytes).withMem (s.loadAt origin bytes).mem := rfl
    _ = s.withMem (s.loadAt origin bytes).mem := by rw [s.copyBytes_eq]; rfl

theorem State.readWord_loadAt_resetVector (s : State) (origin : Addr) (bytes : List Byte) :
    (s.loadAt origin bytes).readWord resetVector = origin :=
  State.readWord_writeWord_same ..

end Sys2Proof.Machine

namespace Sys2Proof

open Sys2Proof.Machine Sys2Proof.Claims

/-- Settles O25: outside the vector the bytes are those of the copy. -/
theorem loadCopiesTheProgram : Obligations.LoadCopiesTheProgram := by
  intro s origin bytes t
  refine ⟨State.readByte_writeWord_low .., State.readByte_writeWord_high .., ?copied, ?other, ?frame, fun _ => rfl⟩
  case copied =>
    intro k hk hlast hlow hhigh
    rw [s.readByte_loadAt_other origin bytes hlow hhigh]
    exact s.readByte_copyBytes_at origin bytes k hk hlast
  case other =>
    intro addr hlow hhigh houtside
    rw [s.readByte_loadAt_other origin bytes hlow hhigh]
    exact s.readByte_copyBytes_other origin addr bytes houtside
  case frame => exact s.loadAt_eq_withMem origin bytes

/-- Settles O27: `reset` reads back the origin that `load` wrote in the vector. -/
theorem loadThenResetStartsAtTheOrigin : Obligations.LoadThenResetStartsAtTheOrigin := by
  intro s bytes mode
  rw [State.hostReset, State.load, State.readWord_loadAt_resetVector]
  rfl

/-- Settles O22: the memory after reset lists no byte. -/
theorem resetMemoryIsCanonical : Obligations.ResetMemoryIsCanonical := rfl

end Sys2Proof
end
